-- ==== Sys2Proof/Word.lean ====
section
/-!
DEFINITION. The plainest data of the model: bytes, two-byte values, the clock's unit, and the two
fixed-size tables the part is made of (eight bays, four profiles).
-/

namespace Sys2Proof

/-- One byte of a port frame (R166). -/
abbrev Byte := BitVec 8

/-- A two-byte value of a port frame, sent high byte first (R166). -/
abbrev Half := BitVec 16

/-- A time in whole microseconds, the unit of the stamp counter (R58). -/
abbrev Micros := Nat

/-- A time in whole milliseconds, the unit of timers and stamps (R59). -/
abbrev Millis := Nat

/-- A bay number, 0 to 7 (R1). -/
abbrev BayNo := Fin 8

/-- A profile number, 0 to 3 (R187). -/
abbrev ProfileNo := Fin 4

/-- A table of eight entries, one for each bay (R1) or each shared word (R174). -/
structure Eight (α : Type) where
  at0 : α
  at1 : α
  at2 : α
  at3 : α
  at4 : α
  at5 : α
  at6 : α
  at7 : α
  deriving DecidableEq, Repr

/-- A table of four entries, one for each drive profile (R187). -/
structure Four (α : Type) where
  at0 : α
  at1 : α
  at2 : α
  at3 : α
  deriving DecidableEq, Repr

def Eight.all {α : Type} (x : α) : Eight α := ⟨x, x, x, x, x, x, x, x⟩

def Eight.get {α : Type} (t : Eight α) (i : BayNo) : α :=
  match i with
  | 0 => t.at0
  | 1 => t.at1
  | 2 => t.at2
  | 3 => t.at3
  | 4 => t.at4
  | 5 => t.at5
  | 6 => t.at6
  | 7 => t.at7

def Eight.set {α : Type} (t : Eight α) (i : BayNo) (x : α) : Eight α :=
  match i with
  | 0 => { t with at0 := x }
  | 1 => { t with at1 := x }
  | 2 => { t with at2 := x }
  | 3 => { t with at3 := x }
  | 4 => { t with at4 := x }
  | 5 => { t with at5 := x }
  | 6 => { t with at6 := x }
  | 7 => { t with at7 := x }

/-- The entries in ascending order of their number. -/
def Eight.toList {α : Type} (t : Eight α) : List α :=
  [t.at0, t.at1, t.at2, t.at3, t.at4, t.at5, t.at6, t.at7]

def Four.all {α : Type} (x : α) : Four α := ⟨x, x, x, x⟩

def Four.get {α : Type} (t : Four α) (i : ProfileNo) : α :=
  match i with
  | 0 => t.at0
  | 1 => t.at1
  | 2 => t.at2
  | 3 => t.at3

def Four.set {α : Type} (t : Four α) (i : ProfileNo) (x : α) : Four α :=
  match i with
  | 0 => { t with at0 := x }
  | 1 => { t with at1 := x }
  | 2 => { t with at2 := x }
  | 3 => { t with at3 := x }

def Four.map {α β : Type} (f : α → β) (t : Four α) : Four β :=
  ⟨f t.at0, f t.at1, f t.at2, f t.at3⟩

def Four.every {α : Type} (f : α → Bool) (t : Four α) : Bool := f t.at0 && f t.at1 && f t.at2 && f t.at3

/-- The eight bay numbers in ascending order (R6). -/
def bayNos : List BayNo := [0, 1, 2, 3, 4, 5, 6, 7]

end Sys2Proof
end

