-- ==== Sys2Proof/Machine/Settings.lean ====
section
/-!
DEFINITION. The settings records of 11_settings_store.md: the fields of a drive profile and of the case
record, their ranges, and the built-in values (R187).
-/

namespace Sys2Proof.Machine

/-- The nearest bound of a range, or the value itself when it lies inside (R187). -/
def clampTo (lo hi x : Nat) : Nat := max lo (min hi x)

/-- A drive profile: sixteen fields in the order of the profile table (R187). -/
structure Profile where
  pNom : Nat
  tol : Nat
  atSpeedRevs : Nat
  lossRevs : Nat
  spinupLimit : Millis
  spinupTries : Nat
  surge : Nat
  run : Nat
  loadTime : Millis
  loadSettle : Millis
  unloadTime : Millis
  retractPulse : Millis
  retractTime : Millis
  headDwell : Millis
  stopQuiet : Millis
  spindownLimit : Millis
  deriving DecidableEq, Repr

/-- The case record: seventeen fields in the order of the case record table, then the profile map (R187). -/
structure CaseSettings where
  limitInlet : Nat
  limitBattery : Nat
  grantGap : Millis
  shockLevel : Nat
  fallLevel : Nat
  fallRun : Nat
  vibShift : Nat
  quietLevel : Nat
  roughLevel : Nat
  quietDwell : Millis
  roughDwell : Millis
  transitDwell : Nat
  transitExitDwell : Nat
  alarmHold : Millis
  silenceLimit : Millis
  missLimit : Nat
  blindRecover : Nat
  profileMap : Eight ProfileNo
  deriving DecidableEq, Repr

/-- The built-in profile: the defaults of the profile table (R187). -/
def builtInProfile : Profile :=
  { pNom := 8333, tol := 8, atSpeedRevs := 16, lossRevs := 4, spinupLimit := 20000, spinupTries := 2,
    surge := 40, run := 12, loadTime := 800, loadSettle := 200, unloadTime := 800, retractPulse := 10,
    retractTime := 300, headDwell := 500, stopQuiet := 1500, spindownLimit := 30000 }

/-- The built-in case settings: the defaults of the case record table (R187). -/
def builtInCase : CaseSettings :=
  { limitInlet := 160, limitBattery := 80, grantGap := 1500, shockLevel := 750, fallLevel := 75,
    fallRun := 48, vibShift := 5, quietLevel := 12, roughLevel := 40, quietDwell := 3000,
    roughDwell := 2000, transitDwell := 60, transitExitDwell := 20, alarmHold := 1000,
    silenceLimit := 20, missLimit := 8, blindRecover := 32, profileMap := Eight.all 0 }

/-- A profile from raw fields, each clamped to its range (R187). -/
def Profile.clamped (field : Nat → Nat) : Profile :=
  { pNom := clampTo 4000 20000 (field 0)
    tol := clampTo 1 64 (field 1)
    atSpeedRevs := clampTo 1 64 (field 2)
    lossRevs := clampTo 1 16 (field 3)
    spinupLimit := clampTo 1000 60000 (field 4)
    spinupTries := clampTo 1 4 (field 5)
    surge := clampTo 1 80 (field 6)
    run := clampTo 1 40 (field 7)
    loadTime := clampTo 50 5000 (field 8)
    loadSettle := clampTo 0 2000 (field 9)
    unloadTime := clampTo 50 5000 (field 10)
    retractPulse := clampTo 1 50 (field 11)
    retractTime := clampTo 20 2000 (field 12)
    headDwell := clampTo 0 10000 (field 13)
    stopQuiet := clampTo 200 5000 (field 14)
    spindownLimit := clampTo 2000 60000 (field 15) }

/-- A profile map entry: a value above 3 is written as 3 (R187). -/
def mapEntry (x : Nat) : ProfileNo := ⟨min 3 x, by omega⟩

/-- Case settings from raw fields (0 to 16, then the map as 17 to 24), each clamped to its range (R187). -/
def CaseSettings.clamped (field : Nat → Nat) : CaseSettings :=
  { limitInlet := clampTo 20 400 (field 0)
    limitBattery := clampTo 10 400 (field 1)
    grantGap := clampTo 0 5000 (field 2)
    shockLevel := clampTo 50 3334 (field 3)
    fallLevel := clampTo 0 200 (field 4)
    fallRun := clampTo 1 255 (field 5)
    vibShift := clampTo 1 8 (field 6)
    quietLevel := clampTo 1 2000 (field 7)
    roughLevel := clampTo 2 3000 (field 8)
    quietDwell := clampTo 100 60000 (field 9)
    roughDwell := clampTo 100 60000 (field 10)
    transitDwell := clampTo 5 600 (field 11)
    transitExitDwell := clampTo 2 600 (field 12)
    alarmHold := clampTo 100 10000 (field 13)
    silenceLimit := clampTo 5 200 (field 14)
    missLimit := clampTo 1 64 (field 15)
    blindRecover := clampTo 1 255 (field 16)
    profileMap :=
      ⟨mapEntry (field 17), mapEntry (field 18), mapEntry (field 19), mapEntry (field 20),
       mapEntry (field 21), mapEntry (field 22), mapEntry (field 23), mapEntry (field 24)⟩ }

/-- The sixteen fields in the order of the profile table (R194). -/
def Profile.fields (p : Profile) : List Nat :=
  [p.pNom, p.tol, p.atSpeedRevs, p.lossRevs, p.spinupLimit, p.spinupTries, p.surge, p.run, p.loadTime,
   p.loadSettle, p.unloadTime, p.retractPulse, p.retractTime, p.headDwell, p.stopQuiet, p.spindownLimit]

/-- The seventeen two-byte fields in the order of the case record table (R194). -/
def CaseSettings.fields (c : CaseSettings) : List Nat :=
  [c.limitInlet, c.limitBattery, c.grantGap, c.shockLevel, c.fallLevel, c.fallRun, c.vibShift,
   c.quietLevel, c.roughLevel, c.quietDwell, c.roughDwell, c.transitDwell, c.transitExitDwell,
   c.alarmHold, c.silenceLimit, c.missLimit, c.blindRecover]

/-- Every field of the case record, the map entries last (R187). -/
def CaseSettings.allFields (c : CaseSettings) : List Nat :=
  c.fields ++ c.profileMap.toList.map (fun n => n.val)

/-- The ROUGH_LEVEL the classifier uses: the field when it exceeds QUIET_LEVEL, otherwise
QUIET_LEVEL + 1 (R136). -/
def CaseSettings.effectiveRough (c : CaseSettings) : Nat :=
  if c.roughLevel > c.quietLevel then c.roughLevel else c.quietLevel + 1

end Sys2Proof.Machine
end

