-- ==== Sys2Proof/Syntax.lean ====
section
/-!
DEFINITION. The commands and events of the part: one constructor for each row of
spec/opcode_table.json (95_what_each_step_holds.md). Parameters of port commands are the raw bytes of
R172 and R175, so that range checks and clamping are left to the meanings.

`dt` is the time in microseconds since the event taken before this one (log 1). A timer expiry has
none: it is taken when its timer's moment has come (log 2).
-/

namespace Sys2Proof

/-- The two controller ports (R166). -/
inductive Port where
  | a
  | b
  deriving DecidableEq, Repr

def Port.peer : Port → Port
  | .a => .b
  | .b => .a

/-- A run of samples of MRX: the time since the event before, and the samples, oldest first, from the sample after the
last one that an event carried (log 13). -/
structure Sampling where
  dt : Micros
  line : List Bool
  deriving DecidableEq, Repr

/-- The steps of the part. -/
inductive Instr where
  -- Immediate commands (R172)
  | setDemand (dt : Micros) (port : Port) (mask level : Byte)
  | readBay (dt : Micros) (port : Port) (bay : Byte)
  | readCase (dt : Micros) (port : Port)
  /-- `idx` and `mrx` are the levels found at the bay's IDX pin and at MRX when the command is taken:
  no row of the table reports their every change (log 5). -/
  | senseLines (dt : Micros) (port : Port) (bay : Byte) (idx mrx : Bool)
  | takeCompletion (dt : Micros) (port : Port)
  | cancel (dt : Micros) (port : Port) (tag : Byte)
  | clearFault (dt : Micros) (port : Port) (bay : Byte)
  | ringPeer (dt : Micros) (port : Port) (bits : Half)
  | takeNotices (dt : Micros) (port : Port)
  | setNoticeMask (dt : Micros) (port : Port) (mask : Byte)
  | readShared (dt : Micros) (port : Port) (index : Byte)
  | writeShared (dt : Micros) (port : Port) (index : Byte) (value : Half)
  | readProfile (dt : Micros) (port : Port) (index : Byte)
  | readStored (dt : Micros) (port : Port) (record : Byte)
  | portRestart (dt : Micros) (port : Port)
  -- Requests (R175)
  | waitBay (dt : Micros) (port : Port) (tag bay level : Byte) (timeout : Half)
  | releaseBay (dt : Micros) (port : Port) (tag bay : Byte) (timeout : Half)
  /-- `contents` are the content bytes: 32 for a profile, 42 for the case record. -/
  | writeRecord (dt : Micros) (port : Port) (tag record lock : Byte) (contents : List Byte)
  | reload (dt : Micros) (port : Port) (tag : Byte)
  -- Frame events (R168, R170, R171, R173)
  | unknownCommand (dt : Micros) (port : Port)
  | startingFrame (dt : Micros) (port : Port)
  | selectFall (dt : Micros) (port : Port)
  /-- `bytes` is how many whole bytes the frame completed before select rose. -/
  | frameEnd (dt : Micros) (port : Port) (bytes : Nat)
  -- Reset and start-up (R57, R191)
  | partReset
  | startupLoadComplete (dt : Micros)
  -- Input lines and their filters (R154, R48, R77, R103, R188); a level is "asserted"
  | prsLineChange (dt : Micros) (bay : BayNo) (asserted : Bool)
  | prsSettleExpiry (bay : BayNo)
  | ejcLineChange (dt : Micros) (bay : BayNo) (asserted : Bool)
  | ejcSettleExpiry (bay : BayNo)
  | fltLineChange (dt : Micros) (bay : BayNo) (asserted : Bool)
  | fltFilterExpiry (bay : BayNo)
  | prkLineChange (dt : Micros) (bay : BayNo) (asserted : Bool)
  | prkFilterExpiry (bay : BayNo)
  | srcLineChange (dt : Micros) (asserted : Bool)
  | srcSettleExpiry
  | keyLineChange (dt : Micros) (asserted : Bool)
  | keySettleExpiry
  -- Speed monitor (R60, R65, R71)
  | idxPulse (dt : Micros) (bay : BayNo)
  | absenceTimerExpiry (bay : BayNo)
  | quietTimerExpiry (bay : BayNo)
  -- Spindle timers (R36, R44, R55, R40)
  | spinupLimitExpiry (bay : BayNo)
  | spindownLimitExpiry (bay : BayNo)
  | unloadWatchExpiry (bay : BayNo)
  | dwellTimerExpiry (bay : BayNo)
  -- Head timers (R80, R81, R88, R91, R93)
  | loadTimerExpiry (bay : BayNo)
  | settleTimerExpiry (bay : BayNo)
  | withdrawWatchExpiry (bay : BayNo)
  | unloadTimerExpiry (bay : BayNo)
  | pulseTimerExpiry (bay : BayNo)
  | retractTimerExpiry (bay : BayNo)
  -- Arbiter and LED (R105, R109, R165)
  | gapTimerExpiry
  | grantEvaluation (dt : Micros)
  | ledPatternToggle (bay : BayNo)
  -- Motion receiver (R117, R118, R127)
  /-- `line` holds the samples of MRX, oldest first, from the sample after the last one that an event carried to the
  one that finishes the character (log 13). -/
  | characterFinished (dt : Micros) (line : List Bool)
  | silenceTimerExpiry
  -- Ends of requests and of store operations (R180, R163, R189, R191)
  | waitBayTimeout (port : Port) (tag : Byte)
  | releaseBayTimeout (port : Port) (tag : Byte)
  /-- `agrees` is the outcome of the verification of R189, which nothing in the part decides. -/
  | writeEnd (agrees : Bool)
  | reloadEnd
  /-- The samples up to the one that decides the start bit 1. -/
  | mrxFalseStart (dip : Sampling)
  deriving DecidableEq, Repr

end Sys2Proof
end

