-- ==== Sys2Proof/Machine/State.lean ====
section
/-!
DEFINITION. The state of the part as plain data, block by block (00_scope.md, "Blocks of the part"), and the
state right after part reset. A running timer is `some` of its due moment in µs, a stopped one `none`.
-/

namespace Sys2Proof.Machine

/-- The part has no fault in the sense of a machine that stops: every row of its table ends in a next
state, so no event raises one (INVENTORY.md, Faults). -/
inductive Fault where
  deriving DecidableEq, Repr

/-- Reasons to give an event no meaning. -/
inductive Refusal where
  /-- Raised by an arm of `exec` whose row has no meaning yet; safe, since the machine stops. No arm
  raises it. -/
  | notModelled (mnemonic : String)
  deriving DecidableEq, Repr

/-! ### The bay table (01, 02, 03, 04, 08) -/

/-- The twelve bay states (R4). -/
inductive BayState where
  | empty | idle | queued | spinningUp | spun | loading | ready | unloading | retracting
  | spinningDown | faulted | released
  deriving DecidableEq, Repr

/-- A demand, STOP < SPIN < LOAD (R5, R8); also the level of a WAIT BAY (R179). -/
inductive Demand where
  | stop | spin | load
  deriving DecidableEq, Repr

/-- The six fault kinds (R51). -/
inductive FaultKind where
  | spinupFailed | speedLost | loadFailed | headsStuck | noStop | carrierFault
  deriving DecidableEq, Repr

/-- The five retract causes; FAULT carries its pending fault kind (R19, R90). -/
inductive Cause where
  | alarm | eject
  | fault (pending : FaultKind)
  | stray | clear
  deriving DecidableEq, Repr

/-- The phases of LOADING (R75). -/
inductive Phase where
  | seek | settle | withdraw
  deriving DecidableEq, Repr

/-- The head timers, of which at most one is in flight (R75). -/
inductive HeadTimer where
  | load | settle | withdraw | unload | retract
  deriving DecidableEq, Repr

/-- The patterns of the bay LED (R165). -/
inductive LedPattern where
  | off | on | slow | fast
  deriving DecidableEq, Repr

/-- Where the values of a profile snapshot came from (R14). -/
inductive Source where
  | profile (n : ProfileNo)
  | builtIn
  deriving DecidableEq, Repr

/-- A profile snapshot, written at a grant (R14, R110). -/
structure Snapshot where
  source : Source
  profile : Profile
  deriving DecidableEq, Repr

/-- Hold reasons (R20) and the further completion reasons (R178), which share their codes (R194). -/
inductive Reason where
  | none | empty | fault | ejected | noDemand | releasePeer | motion | budget | gap | dwell
  | inProgress | removed | demandRaised | storeFault
  deriving DecidableEq, Repr

/-- One bay: its record (R1), its sequencer (R25, R75), its speed monitor (R60 to R74), its input
filters (R48, R77, R154), its output lines (R26, R76) and its LED (R165). -/
structure Bay where
  -- raw levels of the input lines, true when asserted
  prs : Bool
  ejc : Bool
  flt : Bool
  prk : Bool
  idx : Bool
  -- settled and filtered levels with their timers
  present : Bool
  prsTimer : Option Micros
  ejectorOpen : Bool
  ejcTimer : Option Micros
  fltOn : Bool
  fltTimer : Option Micros
  prkOn : Bool
  prkTimer : Option Micros
  -- the record
  state : BayState
  since : Micros
  demandA : Demand
  demandB : Demand
  flagA : Bool
  flagB : Bool
  snapshot : Option Snapshot
  tries : Nat
  retry : Bool
  lastPeriod : Option Nat
  inRun : Nat
  outRun : Nat
  lastPark : Option Millis
  fault : Option FaultKind
  cause : Option Cause
  -- the sequencer
  restMark : Bool
  spinupTimer : Option Micros
  spindownTimer : Option Micros
  spindownHeld : Bool
  unloadWatch : Option Micros
  dwellTimer : Option Micros
  phase : Option Phase
  headTimer : Option (HeadTimer × Micros)
  pulseTimer : Option Micros
  -- output lines, true when asserted
  spin : Bool
  hld : Bool
  rtr : Bool
  led : Bool
  ledPattern : LedPattern
  ledTimer : Option Micros
  -- the speed monitor
  reference : Option Nat
  absenceTimer : Option Micros
  quietTimer : Option Micros
  quietElapsed : Bool
  deriving DecidableEq, Repr

/-! ### The arbiter (05) -/

/-- The arbiter (R98) with the raw SRC level and its filter (R103). The draw is computed (R101). -/
structure Arbiter where
  queue : List BayNo
  battery : Bool
  srcRaw : Bool
  srcTimer : Option Micros
  limit : Nat
  lastGrant : Option Millis
  gapTimer : Option Micros
  evalOwed : Bool
  deriving DecidableEq, Repr

/-! ### The motion receiver and classifier (06, 07) -/

/-- Where the receiver stands on the MRX line (R116, R117). -/
inductive LinePhase where
  /-- In HUNT; `armed` where the sample before was at 1, so that one at 0 is a start. -/
  | hunt (armed : Bool)
  /-- Inside a character, its sample `sample` (1 to 16) of bit `bit` (0 to 10, the start bit first) the last one
  taken; `taken` holds the samples 7, 8 and 9 of each bit so far, as `LineFact.finished` gives them. -/
  | inCharacter (bit sample : Nat) (taken : BitVec 33)
  deriving DecidableEq, Repr

/-- Sensor statuses (R125). -/
inductive SensorStatus where
  | normal | clipped | selfTest | failed
  deriving DecidableEq, Repr

/-- An open sensor frame: its header's value and the axis characters so far, in order (R116). -/
structure OpenFrame where
  header : Nat
  axes : List Nat
  deriving DecidableEq, Repr

/-- The motion receiver (R116), with the MRX level last seen. -/
structure Receiver where
  linePhase : LinePhase
  openFrame : Option OpenFrame
  expected : Option Nat
  missRun : Nat
  limitMark : Bool
  lastStatus : Option SensorStatus
  silenceTimer : Option Micros
  mrx : Bool
  deriving DecidableEq, Repr

/-- The motion states (R130). -/
inductive Motion where
  | quiet | stirred | rough | transit | alarm | blind
  deriving DecidableEq, Repr

/-- Where an ALARM returns to (R130, R138). -/
inductive AlarmOrigin where
  | rough | transit | blind
  deriving DecidableEq, Repr

/-- The motion record (R130). -/
structure MotionRecord where
  state : Motion
  vib : Nat
  lastE : Option Nat
  lastD : Option Nat
  fallRun : Nat
  fallReported : Bool
  calmSince : Option Millis
  smoothSince : Option Millis
  roughSince : Option Millis
  alarmAt : Option Millis
  alarmOrigin : Option AlarmOrigin
  recover : Nat
  deriving DecidableEq, Repr

/-! ### The port units (09, 10) -/

/-- What an outstanding request waits for (R177 to R180, R163, R189, R191). -/
inductive RequestKind where
  | wait (bay : BayNo) (level : Demand)
  | release (bay : BayNo)
  | write
  | reload
  deriving DecidableEq, Repr

/-- An outstanding request: tag, kind, acceptance stamp, and the moment its timeout runs out (none for a
store request). -/
structure Request where
  tag : Byte
  kind : RequestKind
  accepted : Millis
  due : Option Micros
  deriving DecidableEq, Repr

/-- Kinds of completion records (R178). -/
inductive CompletionKind where
  | wait | release | write | reload
  deriving DecidableEq, Repr

/-- How a request ended (R178). -/
inductive Termination where
  | complete | expired | aborted | cancelled
  deriving DecidableEq, Repr

/-- A completion record (R178). -/
structure Completion where
  tag : Byte
  kind : CompletionKind
  termination : Termination
  reason : Reason
  bay : Option BayNo
  bayState : Option BayState
  elapsed : Millis
  deriving DecidableEq, Repr

/-- The clearing that a fully clocked frame carries out when select rises (R173). What is set again
after the command was taken is taken out of it. -/
inductive PendingClear where
  | nothing
  | bayFlag (bay : BayNo)
  | motionFlag
  | headRecord
  | noticeBits (bits : Half)
  deriving DecidableEq, Repr

/-- The frame of a port: none in progress, in progress with no command taken yet, or with its command
taken. `params` is the number of parameter bytes before the answer code; `answer` is the answer code
followed by the answer data (R167). -/
inductive Frame where
  | idle
  | begun (status : Byte)
  | taken (status : Byte) (params : Nat) (answer : List Byte) (clear : PendingClear)
  deriving DecidableEq, Repr

/-- One port unit (R166 to R169, R177 to R185). Slots in use are the outstanding requests and the
records of the completion queue (R177). -/
structure PortUnit where
  frame : Frame
  discard : Bool
  outstanding : List Request
  completions : List Completion
  notice : Half
  maskC : Bool
  maskN : Bool
  maskM : Bool
  maskB : Bool
  changed : Eight Bool
  motionChanged : Bool
  deriving DecidableEq, Repr

/-! ### The settings store (11) -/

/-- A stored record: contents, lock flag and commit marker (R187). -/
structure Stored (α : Type) where
  contents : α
  lock : Bool
  valid : Bool
  deriving DecidableEq, Repr

/-- A working copy and its mark "taken from its record" (R191). -/
structure Working (α : Type) where
  values : α
  fromRecord : Bool
  deriving DecidableEq, Repr

/-- The record a write is for, with the clamped contents it writes (R189). -/
inductive WriteTarget where
  | profile (n : ProfileNo) (contents : Profile)
  | caseRecord (contents : CaseSettings)
  deriving DecidableEq, Repr

/-- The write engine (11.3, R188 to R191). -/
inductive Engine where
  | idle
  | startup
  | write (target : WriteTarget) (lock : Bool) (owner : Port) (due : Micros)
  | reload (owner : Port) (due : Micros)
  deriving DecidableEq, Repr

/-- The settings store (R187 to R193) with the key switch input (R188). -/
structure Store where
  profiles : Four (Stored Profile)
  caseRecord : Stored CaseSettings
  workingProfiles : Four (Working Profile)
  workingCase : Working CaseSettings
  engine : Engine
  keyService : Bool
  keyRaw : Bool
  keyTimer : Option Micros
  deriving DecidableEq, Repr

/-! ### The part -/

/-- The whole part. `pending` and `draws` are the model's own fields (log 22, log 9). -/
structure State where
  pending : List Instr
  now : Micros
  draws : Nat
  bays : Eight Bay
  arbiter : Arbiter
  receiver : Receiver
  motion : MotionRecord
  portA : PortUnit
  portB : PortUnit
  shared : Eight Half
  store : Store
  deriving DecidableEq, Repr

/-- The record of a bay with no carrier after part reset: EMPTY, nothing in flight (R57, R74), every
input line deasserted (DESIGN CHOICE, log 6). -/
def Bay.reset : Bay :=
  { prs := false, ejc := false, flt := false, prk := false, idx := false,
    present := false, prsTimer := none, ejectorOpen := false, ejcTimer := none,
    fltOn := false, fltTimer := none, prkOn := false, prkTimer := none,
    state := .empty, since := 0, demandA := .stop, demandB := .stop, flagA := false, flagB := false,
    snapshot := none, tries := 0, retry := false, lastPeriod := none, inRun := 0, outRun := 0,
    lastPark := none, fault := none, cause := none,
    restMark := false, spinupTimer := none, spindownTimer := none, spindownHeld := false,
    unloadWatch := none, dwellTimer := none, phase := none, headTimer := none, pulseTimer := none,
    spin := false, hld := false, rtr := false, led := false, ledPattern := .off, ledTimer := none,
    reference := none, absenceTimer := none, quietTimer := none, quietElapsed := false }

/-- The arbiter after part reset (R98); the limit before the start-up load is DESIGN CHOICE (log 7). -/
def Arbiter.reset : Arbiter :=
  { queue := [], battery := false, srcRaw := false, srcTimer := none, limit := builtInCase.limitInlet,
    lastGrant := none, gapTimer := none, evalOwed := false }

/-- The receiver after part reset, not yet started, waiting for a sample at 1 (R116). -/
def Receiver.reset : Receiver :=
  { linePhase := .hunt false, openFrame := none, expected := none, missRun := 0, limitMark := false,
    lastStatus := none, silenceTimer := none, mrx := true }

/-- The motion record after part reset (R130); V before the start-up load is DESIGN CHOICE (log 7). -/
def MotionRecord.reset : MotionRecord :=
  { state := .blind, vib := 16 * builtInCase.effectiveRough, lastE := none, lastD := none,
    fallRun := 0, fallReported := false, calmSince := none, smoothSince := none, roughSince := none,
    alarmAt := none, alarmOrigin := none, recover := 0 }

/-- A port unit after part reset (R169, R177, R178, R182, R183, R184). -/
def PortUnit.reset : PortUnit :=
  { frame := .idle, discard := false, outstanding := [], completions := [], notice := 0,
    maskC := true, maskN := true, maskM := true, maskB := true,
    changed := Eight.all true, motionChanged := true }

/-- The store of a part that left the factory (R187), with the start-up load in flight (R191). The
working copies before that load completes are DESIGN CHOICE (log 7). -/
def Store.reset : Store :=
  { profiles := Four.all { contents := builtInProfile, lock := false, valid := true },
    caseRecord := { contents := builtInCase, lock := false, valid := true },
    workingProfiles := Four.all { values := builtInProfile, fromRecord := false },
    workingCase := { values := builtInCase, fromRecord := false },
    engine := .startup, keyService := false, keyRaw := false, keyTimer := none }

/-- The part right after part reset, with no carrier in any bay (log 6) and nothing waiting. -/
def State.reset : State :=
  { pending := [], now := 0, draws := 0, bays := Eight.all Bay.reset, arbiter := Arbiter.reset,
    receiver := Receiver.reset, motion := MotionRecord.reset, portA := PortUnit.reset,
    portB := PortUnit.reset, shared := Eight.all 0, store := Store.reset }

end Sys2Proof.Machine
end

