-- ==== Sys2Proof/Machine/Line.lean ====
section
/-!
DEFINITION. The sampling of MRX (R117): the receiver takes one sample after another, sixteen to a bit, finds the
start of a character, and decides each bit from its samples 7, 8 and 9. What the eleven bits then give is R118's.
-/

namespace Sys2Proof.Machine

/-! ### The samples that decide a character (R117, R118) -/

/-- Sample 7, 8 or 9 (`j` 0 to 2) of bit `i` of a character (R117). -/
def charSample (samples : BitVec 33) (i j : Nat) : Bool := samples.getLsbD (3 * i + j)

/-- A bit's value: the one held by at least two of the three samples (R117). -/
def charBit (samples : BitVec 33) (i : Nat) : Bool :=
  let a := charSample samples i 0
  let b := charSample samples i 1
  let c := charSample samples i 2
  (a && b) || (a && c) || (b && c)

/-- The three samples of a bit are all equal. -/
def charSteady (samples : BitVec 33) (i : Nat) : Bool :=
  (charSample samples i 0 == charSample samples i 1) &&
    (charSample samples i 1 == charSample samples i 2)

/-- Noisy: for some of its eleven bits the three samples are not all equal (R118). -/
def charNoisy (samples : BitVec 33) : Bool :=
  !((List.range 11).all (charSteady samples))

/-- The value of a character: its first eight data bits, least significant first (R117). -/
def charValue (samples : BitVec 33) : Nat :=
  ((List.range 8).map fun i => if charBit samples (i + 1) then 2 ^ i else 0).sum

/-- The mark bit, the ninth data bit (R117). -/
def charMarked (samples : BitVec 33) : Bool := charBit samples 9

/-- The stop bit (R117). -/
def charStop (samples : BitVec 33) : Bool := charBit samples 10

/-! ### One sample after another (R117) -/

/-- What a sample of MRX can bring about. -/
inductive LineFact where
  /-- The start bit decided 1: the line merely dipped. -/
  | falseStart
  /-- The stop bit is decided: a character is finished. `samples` holds the samples 7, 8 and 9 of its eleven bits, three
  bits of the vector for each, the start bit's in bits 0 to 2. -/
  | finished (samples : BitVec 33)
  deriving DecidableEq, Repr

/-- The deciding samples once sample `sample` of bit `bit` is taken: 7, 8 and 9 are kept. -/
def takeSample (bit sample : Nat) (level : Bool) (taken : BitVec 33) : BitVec 33 :=
  if level && 7 ≤ sample && sample ≤ 9 then taken ||| BitVec.ofNat 33 (2 ^ (3 * bit + (sample - 7))) else taken

/-- Inside a character, sample `sample` of bit `bit` has been taken: at its sample 9 a start bit that decides 1 and
every stop bit end it, and the receiver is back in HUNT; otherwise it goes on. -/
def LinePhase.taking (bit sample : Nat) (level : Bool) (taken : BitVec 33) : LinePhase × Option LineFact :=
  if sample = 9 && bit = 0 && charBit taken 0 then (.hunt level, some .falseStart)
  else if sample = 9 && bit = 10 then (.hunt level, some (.finished taken))
  else (.inCharacter bit sample taken, none)

/-- The receiver takes one sample of MRX. In HUNT a sample at 1 followed by a sample at 0 is sample 1 of a start bit;
inside a character each bit occupies sixteen samples. -/
def LinePhase.sample (level : Bool) : LinePhase → LinePhase × Option LineFact
  | .hunt armed => if armed && !level then (.inCharacter 0 1 0, none) else (.hunt level, none)
  | .inCharacter bit sample taken =>
    if sample < 16 then LinePhase.taking bit (sample + 1) level (takeSample bit (sample + 1) level taken)
    else LinePhase.taking (bit + 1) 1 level taken

/-- The line phase after a run of samples. -/
def LinePhase.after (line : List Bool) (ph : LinePhase) : LinePhase :=
  line.foldl (fun ph level => (ph.sample level).1) ph

/-- What a run of samples brings about, in order. -/
def LinePhase.facts : List Bool → LinePhase → List LineFact
  | [], _ => []
  | level :: line, ph => (ph.sample level).2.toList ++ (ph.sample level).1.facts line

/-- A run of samples finishes one character, at its last sample, for a receiver in HUNT on a resting line. -/
def finishesCharacter (line : List Bool) : Bool :=
  (match (LinePhase.hunt true).facts line with
    | [.finished _] => true
    | _ => false) && (LinePhase.hunt true).facts line.dropLast = []

/-- A run of samples is a dip of the line, its false start found at its last sample, for a receiver in HUNT on a
resting line. -/
def dipsLine (line : List Bool) : Bool :=
  (LinePhase.hunt true).facts line = [.falseStart] && (LinePhase.hunt true).facts line.dropLast = []

end Sys2Proof.Machine
end

