-- ==== Sys2Proof/WellFormed.lean ====
section
/-!
DEFINITION. Which terms are commands and events the part can meet: the conditions that the types leave open.
-/

namespace Sys2Proof

/-- How many content bytes a WRITE RECORD frame carries: 32 for a profile, 42 for the case record; a record
number above 4 ends the parameters at its byte (R175). -/
def recordBytes (record : Byte) : Nat :=
  if record.toNat < 4 then 32 else if record = 4 then 42 else 0

/-- A well-formed command or event. The samples of a character or of a dip end with the one that decides it (R117). -/
def wellFormed : Instr → Bool
  | .writeRecord _ _ _ record _ contents => contents.length = recordBytes record
  | .characterFinished _ line => Machine.finishesCharacter line
  | .mrxFalseStart dip => Machine.dipsLine dip.line
  | .setDemand .. | .readBay .. | .readCase .. | .senseLines .. | .takeCompletion .. | .cancel ..
  | .clearFault .. | .ringPeer .. | .takeNotices .. | .setNoticeMask .. | .readShared ..
  | .writeShared .. | .readProfile .. | .readStored .. | .portRestart .. | .waitBay ..
  | .releaseBay .. | .reload .. | .unknownCommand .. | .startingFrame .. | .selectFall ..
  | .frameEnd .. | .partReset | .startupLoadComplete .. | .prsLineChange .. | .prsSettleExpiry ..
  | .ejcLineChange .. | .ejcSettleExpiry .. | .fltLineChange .. | .fltFilterExpiry ..
  | .prkLineChange .. | .prkFilterExpiry .. | .srcLineChange .. | .srcSettleExpiry
  | .keyLineChange .. | .keySettleExpiry | .idxPulse .. | .absenceTimerExpiry ..
  | .quietTimerExpiry .. | .spinupLimitExpiry .. | .spindownLimitExpiry .. | .unloadWatchExpiry ..
  | .dwellTimerExpiry .. | .loadTimerExpiry .. | .settleTimerExpiry .. | .withdrawWatchExpiry ..
  | .unloadTimerExpiry .. | .pulseTimerExpiry .. | .retractTimerExpiry .. | .gapTimerExpiry
  | .grantEvaluation .. | .ledPatternToggle .. | .silenceTimerExpiry | .waitBayTimeout ..
  | .releaseBayTimeout .. | .writeEnd .. | .reloadEnd => true

end Sys2Proof
end

