-- ==== Sys2Proof/Decode.lean ====
section
/-!
DEFINITION. Reading commands. spec/opcode_table.json gives no row any bits, so no table word spells a command
(log 22). What the spec does encode is the frame: bytes in on a port's SPI lines (R166, R167, R175; codes
in 12_formats_and_line_reference.md), read here whole.
-/

namespace Sys2Proof

/-- The command a table word spells: none, since no row of the table has bits (log 22). -/
def decodeTableWord (_nbits _w : Nat) : Option Instr := none

/-- The nineteen commands of a port frame (12, Codes). -/
inductive CommandName where
  | setDemand | readBay | readCase | senseLines | takeCompletion | cancel | clearFault | ringPeer
  | takeNotices | setNoticeMask | readShared | writeShared | readProfile | readStored | portRestart
  | waitBay | releaseBay | writeRecord | reload
  deriving DecidableEq, Repr

/-- The command a code names, or none (R171; codes, 12). -/
def commandOf (code : Byte) : Option CommandName :=
  match code.toNat with
  | 0x11 => some .setDemand
  | 0x21 => some .readBay
  | 0x22 => some .readCase
  | 0x23 => some .senseLines
  | 0x31 => some .takeCompletion
  | 0x32 => some .cancel
  | 0x12 => some .clearFault
  | 0x33 => some .ringPeer
  | 0x34 => some .takeNotices
  | 0x35 => some .setNoticeMask
  | 0x41 => some .readShared
  | 0x42 => some .writeShared
  | 0x51 => some .readProfile
  | 0x52 => some .readStored
  | 0x5F => some .portRestart
  | 0x61 => some .waitBay
  | 0x62 => some .releaseBay
  | 0x71 => some .writeRecord
  | 0x72 => some .reload
  | _ => none

/-- Two parameter bytes, high byte first (R166). -/
def halfOf (high low : Byte) : Half := high ++ low

/-- What the bytes of a frame amount to so far. -/
inductive Reading where
  /-- The command is taken (R167); further bytes in are ignored. -/
  | taken (i : Instr)
  /-- Not all parameter bytes are in; a frame that ends here is discarded (R169). -/
  | partialFrame
  deriving DecidableEq, Repr

/-- A command read from its parameter bytes, as far as they have come in (R172, R175). `idx` and `mrx` are
the pin levels a SENSE LINES samples (log 5). -/
def readParameters (dt : Micros) (p : Port) (idx mrx : Bool) :
    CommandName → List Byte → Reading
  | .setDemand, m :: l :: _ => .taken (.setDemand dt p m l)
  | .readBay, b :: _ => .taken (.readBay dt p b)
  | .readCase, _ => .taken (.readCase dt p)
  | .senseLines, b :: _ => .taken (.senseLines dt p b idx mrx)
  | .takeCompletion, _ => .taken (.takeCompletion dt p)
  | .cancel, t :: _ => .taken (.cancel dt p t)
  | .clearFault, b :: _ => .taken (.clearFault dt p b)
  | .ringPeer, h :: l :: _ => .taken (.ringPeer dt p (halfOf h l))
  | .takeNotices, _ => .taken (.takeNotices dt p)
  | .setNoticeMask, m :: _ => .taken (.setNoticeMask dt p m)
  | .readShared, i :: _ => .taken (.readShared dt p i)
  | .writeShared, i :: h :: l :: _ => .taken (.writeShared dt p i (halfOf h l))
  | .readProfile, i :: _ => .taken (.readProfile dt p i)
  | .readStored, r :: _ => .taken (.readStored dt p r)
  | .portRestart, _ => .taken (.portRestart dt p)
  | .waitBay, t :: b :: l :: h :: w :: _ => .taken (.waitBay dt p t b l (halfOf h w))
  | .releaseBay, t :: b :: h :: w :: _ => .taken (.releaseBay dt p t b (halfOf h w))
  | .writeRecord, t :: r :: rest =>
    if recordBytes r = 0 then .taken (.writeRecord dt p t r 0 [])
    else
      match rest with
      | lock :: contents =>
        if contents.length < recordBytes r then .partialFrame
        else .taken (.writeRecord dt p t r lock (contents.take (recordBytes r)))
      | [] => .partialFrame
  | .reload, t :: _ => .taken (.reload dt p t)
  | _, _ => .partialFrame

/-- The bytes of a frame, read as R167 gives; `starting` is the starting condition when byte 0
completes (R170). -/
def readFrame (dt : Micros) (p : Port) (starting idx mrx : Bool) : List Byte → Reading
  | [] => .partialFrame
  | code :: params =>
    if starting then .taken (.startingFrame dt p)
    else
      match commandOf code with
      | none => .taken (.unknownCommand dt p)
      | some c => readParameters dt p idx mrx c params

/-- The events of one whole frame on a port: select falls, the command where it is taken, select rises. -/
def frameEvents (dt : Micros) (p : Port) (starting idx mrx : Bool) (bytes : List Byte) : List Instr :=
  let ends := [Instr.frameEnd 0 p bytes.length]
  Instr.selectFall dt p ::
    match readFrame 0 p starting idx mrx bytes with
    | .taken i => i :: ends
    | .partialFrame => ends

end Sys2Proof
end

