-- ==== Sys2Proof/Machine/Ops.lean ====
section
/-!
DEFINITION. The named operations over the state that every block shares: the clock and its timers, the bay
records and port units, and what a bay's event hands on.
-/

namespace Sys2Proof.Machine

/-! ### Clock and timers -/

/-- The millisecond stamp of a moment (R59). -/
def millis (now : Micros) : Millis := now / 1000

/-- The 24-bit microsecond stamp of a moment (R58). -/
def stampOf (now : Micros) : Nat := now % 16777216

/-- The due moment of a timer of `len` ms started at `now` (R25). -/
def dueAfter (now : Micros) (len : Millis) : Micros := now + 1000 * len

/-- `dt` µs pass (log 1). -/
def State.advance (s : State) (dt : Micros) : State := { s with now := s.now + dt }

/-- An expiry is taken no earlier than its timer's due moment (log 2). -/
def State.advanceTo (s : State) (due : Micros) : State := { s with now := max s.now due }

/-- `dt` µs pass, but for the part of them past `limit`: what must end by `limit` ends there at the latest. -/
def State.advanceWithin (s : State) (dt : Micros) (limit : Micros) : State :=
  { s with now := min (s.now + dt) (max s.now limit) }

/-- The debounce time of PRS and EJC (R154). -/
def lineSettle : Millis := 50

/-- The filter time of FLT (R48). -/
def fltFilter : Millis := 2

/-- The filter time of PRK (R77). -/
def prkFilter : Millis := 1

/-- The settle time of SRC (R103) and of KEY (R188). -/
def caseSettle : Millis := 20

/-- The filter of an input line: its timer after the raw level becomes `raw` while the settled level is
`settled` (R154, R48, R77, R103, R188). A level equal to the raw level it had is no change. -/
def filterTimer (now : Micros) (len : Millis) (oldRaw raw settled : Bool) (timer : Option Micros) :
    Option Micros :=
  if raw = oldRaw then timer
  else if raw = settled then none
  else some (dueAfter now len)

/-! ### Bay records and port units -/

def State.bay (s : State) (b : BayNo) : Bay := s.bays.get b

def State.setBay (s : State) (b : BayNo) (x : Bay) : State := { s with bays := s.bays.set b x }

def State.port (s : State) (p : Port) : PortUnit :=
  match p with
  | .a => s.portA
  | .b => s.portB

def State.setPort (s : State) (p : Port) (u : PortUnit) : State :=
  match p with
  | .a => { s with portA := u }
  | .b => { s with portB := u }

def Demand.rank : Demand → Nat
  | .stop => 0
  | .spin => 1
  | .load => 2

/-- The larger of two demands under STOP < SPIN < LOAD (R8). -/
def Demand.larger (d e : Demand) : Demand := if d.rank < e.rank then e else d

/-- A demand column of a bay (R5). -/
def Bay.demand (x : Bay) (p : Port) : Demand :=
  match p with
  | .a => x.demandA
  | .b => x.demandB

def Bay.setDemand (x : Bay) (p : Port) (d : Demand) : Bay :=
  match p with
  | .a => { x with demandA := d }
  | .b => { x with demandB := d }

/-- A release flag of a bay (R11). -/
def Bay.flag (x : Bay) (p : Port) : Bool :=
  match p with
  | .a => x.flagA
  | .b => x.flagB

def Bay.setFlag (x : Bay) (p : Port) (f : Bool) : Bay :=
  match p with
  | .a => { x with flagA := f }
  | .b => { x with flagB := f }

/-- The merged demand (R8). -/
def Bay.merged (x : Bay) : Demand := x.demandA.larger x.demandB

/-- The timing profile: the snapshot, or the built-in profile when it is absent (R15). -/
def Bay.timing (x : Bay) : Profile :=
  match x.snapshot with
  | some sn => sn.profile
  | none => builtInProfile

/-- The release condition (R13). -/
def Bay.releaseCondition (x : Bay) : Bool :=
  (x.demandA = .stop) && (x.demandB = .stop) && (x.flagA || x.flagB || x.ejectorOpen)

/-- The peer hold (R13). -/
def Bay.peerHold (x : Bay) : Bool :=
  (x.flagA && x.demandB ≠ .stop) || (x.flagB && x.demandA ≠ .stop)

/-! ### What a bay's event sees and hands on (R27) -/

/-- What a sequencer reads beside its own record: the moment and the motion state. -/
structure Ctx where
  now : Micros
  motion : Motion
  deriving DecidableEq, Repr

def State.ctx (s : State) : Ctx := ⟨s.now, s.motion.state⟩

/-- What one event of a bay hands on to the arbiter and the ports (R27, R154, R155, R163). -/
inductive Fact where
  | entered (st : BayState)
  | leftEmpty
  | ejectorSet (opened : Bool)
  | demandRaised (port : Port)
  deriving DecidableEq, Repr

/-- A bay in the middle of an event, with the facts so far in the order in which they came about. -/
structure Work where
  bay : Bay
  facts : List Fact
  deriving DecidableEq, Repr

/-- Change the record without handing anything on. -/
def Work.edit (f : Bay → Bay) (w : Work) : Work := { w with bay := f w.bay }

/-- The arbiter's share of a fact: the queue holds exactly the QUEUED bays, a joining bay at the back
(R99, R100), and every state entry sets evaluation owed (R107). -/
def Arbiter.onFact (b : BayNo) (f : Fact) (a : Arbiter) : Arbiter :=
  match f with
  | .entered .queued => { a with queue := a.queue.erase b ++ [b], evalOwed := true }
  | .entered _ => { a with queue := a.queue.erase b, evalOwed := true }
  | _ => a

/-- Set a port's changed flag for a bay; a pending clearing of it no longer acts (R173, R183). -/
def PortUnit.setChanged (b : BayNo) (u : PortUnit) : PortUnit :=
  { u with
    changed := u.changed.set b true
    frame :=
      match u.frame with
      | .taken st n ans (.bayFlag c) => .taken st n ans (if c = b then .nothing else .bayFlag c)
      | f => f }

/-- Set a port's motion-changed flag; a pending clearing of it no longer acts (R173, R183). -/
def PortUnit.setMotionChanged (u : PortUnit) : PortUnit :=
  { u with
    motionChanged := true
    frame :=
      match u.frame with
      | .taken st n ans .motionFlag => .taken st n ans .nothing
      | f => f }

/-- A port's share of a fact: the events that set a bay's changed flag (R183). -/
def PortUnit.onFact (b : BayNo) (f : Fact) (u : PortUnit) : PortUnit :=
  match f with
  | .entered .faulted => u.setChanged b
  | .entered .empty => u.setChanged b
  | .entered .released => u.setChanged b
  | .leftEmpty => u.setChanged b
  | .ejectorSet _ => u.setChanged b
  | _ => u

/-- Hand one fact of a bay on, to the arbiter first (R27, R101). -/
def State.handOn (b : BayNo) (s : State) (f : Fact) : State :=
  { s with
    arbiter := s.arbiter.onFact b f
    portA := s.portA.onFact b f
    portB := s.portB.onFact b f }

/-- One event of the part under way: the state so far and every fact handed on, in order. -/
structure Event where
  st : State
  facts : List (BayNo × Fact)
  deriving DecidableEq, Repr

def State.event (s : State) : Event := ⟨s, []⟩

/-- Let one bay's sequencer act and hand on what it did. -/
def Event.onBay (b : BayNo) (f : Ctx → Work → Work) (e : Event) : Event :=
  let w := f e.st.ctx ⟨e.st.bay b, []⟩
  { st := w.facts.foldl (State.handOn b) (e.st.setBay b w.bay)
    facts := e.facts ++ w.facts.map (fun x => (b, x)) }

/-- Let several bays act, one after the other (R6). -/
def Event.onBays (bs : List BayNo) (f : Ctx → Work → Work) (e : Event) : Event :=
  bs.foldl (fun e b => e.onBay b f) e

/-- The evaluation owed mark is set (R107). -/
def State.oweEvaluation (s : State) : State :=
  { s with arbiter := { s.arbiter with evalOwed := true } }

/-! ### The starting condition (R170) -/

/-- The start-up load has not completed (R168, R170); until then the receiver has not started (R116). -/
def State.starting (s : State) : Bool := s.store.engine = .startup

end Sys2Proof.Machine
end

