-- ==== Sys2Proof/Machine/Sequencer.lean ====
section
/-!
DEFINITION. A bay's sequencer: state entries, the tests made at them, and its response to each event of R27
(02_bay_sequencing.md, 04_head_movement.md, 08_ejection_and_bay_release.md).
-/

namespace Sys2Proof.Machine

/-! ### Lines, LED and timers -/

/-- SPIN deasserted. A fall stops the absence timer (R65), restarts the quiet timer and clears quiet
elapsed (R71). -/
def Bay.dropSpin (c : Ctx) (x : Bay) : Bay :=
  if x.spin then
    { x with
      spin := false
      absenceTimer := none
      quietTimer := some (dueAfter c.now x.timing.stopQuiet)
      quietElapsed := false }
  else x

/-- The first LED pattern of R165 whose condition holds. -/
def Bay.ledWanted (x : Bay) : LedPattern :=
  match x.state with
  | .faulted => .fast
  | .released => .on
  | .empty | .idle => .off
  | _ => if x.ejectorOpen || x.flagA || x.flagB then .slow else .off

/-- Half the period of an LED pattern, in ms (R165). -/
def LedPattern.half : LedPattern → Option Millis
  | .slow => some 500
  | .fast => some 125
  | _ => none

/-- Recompute the LED pattern; a new pattern starts at this moment, asserted but for OFF (R165). -/
def Bay.relight (c : Ctx) (x : Bay) : Bay :=
  if x.ledWanted = x.ledPattern then x
  else
    { x with
      ledPattern := x.ledWanted
      led := x.ledWanted ≠ .off
      ledTimer := x.ledWanted.half.map (dueAfter c.now) }

/-- The heads are found parked: the last park time takes the stamp (R78). -/
def Bay.park (c : Ctx) (x : Bay) : Bay := { x with lastPark := some (millis c.now) }

/-- The record at a state entry: the timers of the state left are abandoned (R25, R75), the fault kind
and retract cause become absent (R19), HLD and RTR fall (R26), and both flags clear on leaving RELEASED
(R11). The entries of LOADING, READY, RETRACTING and FAULTED then write what is theirs. -/
def Bay.entering (c : Ctx) (st : BayState) (x : Bay) : Bay :=
  { x with
    state := st
    since := c.now
    flagA := x.flagA && x.state ≠ .released
    flagB := x.flagB && x.state ≠ .released
    fault := none
    cause := none
    spinupTimer := none
    spindownTimer := none
    spindownHeld := false
    unloadWatch := none
    dwellTimer := none
    phase := none
    headTimer := none
    pulseTimer := none
    hld := false
    rtr := false }

/-- Enter a state and hand the entry on (R27); leaving EMPTY is handed on too (R155). -/
def Work.enter (c : Ctx) (st : BayState) (w : Work) : Work :=
  { bay := (w.bay.entering c st).relight c
    facts := w.facts ++ (if w.bay.state = .empty then [.leftEmpty] else []) ++ [.entered st] }

/-! ### Entries -/

/-- Entry to RELEASED (R159). -/
def Work.toReleased (c : Ctx) (w : Work) : Work := (w.edit (Bay.dropSpin c)).enter c .released

/-- Entry to QUEUED, which joins the queue (R31, R99). -/
def Work.toQueued (c : Ctx) (w : Work) : Work := (w.edit (Bay.dropSpin c)).enter c .queued

/-- The conditions under which an IDLE bay joins the queue, the release condition apart (R31). -/
def Bay.joins (x : Bay) : Bool := (x.merged ≠ .stop) && !x.ejectorOpen && !x.fltOn

/-- What an IDLE bay does at its entry and at each change of a joining or release condition (R31, R159). -/
def Work.idleTest (c : Ctx) (w : Work) : Work :=
  if w.bay.releaseCondition then w.toReleased c
  else if w.bay.joins then w.toQueued c
  else w

/-- Entry to IDLE with the test that follows in the same event (R31). -/
def Work.toIdle (c : Ctx) (w : Work) : Work := ((w.edit (Bay.dropSpin c)).enter c .idle).idleTest c

/-- A RELEASED bay leaves when its release condition no longer holds (R161). -/
def Work.releasedTest (c : Ctx) (w : Work) : Work :=
  if w.bay.releaseCondition then w else w.toIdle c

/-- The stopped event at an entry to FAULTED or SPINNING_DOWN with SPIN deasserted and quiet elapsed
already set (R72): the rest mark is set (R28). -/
def Bay.restIfQuiet (x : Bay) : Bay :=
  { x with restMark := x.restMark || (!x.spin && x.quietElapsed) }

/-- Entry to FAULTED (R51); `keepSpin` for HEADS_STUCK found by a retract or an unload watch. -/
def Work.toFaulted (c : Ctx) (kind : FaultKind) (keepSpin : Bool) (w : Work) : Work :=
  ((if keepSpin then w else w.edit (Bay.dropSpin c)).enter c .faulted).edit
    fun x => { x.restIfQuiet with fault := some kind, retry := false }

/-- The record at entry to SPINNING_DOWN (R43): SPINDOWN_LIMIT starts, and the unload watch where the
entry is one that may start it and PRK is deasserted (R55). -/
def Bay.startSpindown (c : Ctx) (mayWatch : Bool) (x : Bay) : Bay :=
  { x.restIfQuiet with
    spindownTimer := some (dueAfter c.now x.timing.spindownLimit)
    unloadWatch :=
      if mayWatch && !x.prkOn then some (dueAfter c.now x.timing.unloadTime) else none }

/-- Entry to SPINNING_DOWN; with the rest mark set and no unload watch the bay goes on to IDLE within
the same event (R43, R72). -/
def Work.toSpinningDown (c : Ctx) (mayWatch : Bool) (w : Work) : Work :=
  let w := ((w.edit (Bay.dropSpin c)).enter c .spinningDown).edit (Bay.startSpindown c mayWatch)
  if w.bay.restMark && w.bay.unloadWatch.isNone then w.toIdle c else w

/-- Entry to READY (R85). -/
def Work.toReady (c : Ctx) (w : Work) : Work := (w.enter c .ready).edit fun x => { x with hld := true }

/-- The SETTLE phase begins; a LOAD_SETTLE of 0 expires at its start (R80). -/
def Work.startSettle (c : Ctx) (w : Work) : Work :=
  if w.bay.timing.loadSettle = 0 then w.toReady c
  else w.edit fun x =>
    { x with
      phase := some .settle
      headTimer := some (.settle, dueAfter c.now x.timing.loadSettle) }

/-- Entry to LOADING (R79). -/
def Work.toLoading (c : Ctx) (w : Work) : Work :=
  let w := (w.enter c .loading).edit fun x =>
    { x with
      hld := true
      phase := some .seek
      headTimer := some (.load, dueAfter c.now x.timing.loadTime) }
  if w.bay.prkOn then w else w.startSettle c

/-- Entry to RETRACTING (R90). -/
def Work.toRetracting (c : Ctx) (cause : Cause) (w : Work) : Work :=
  (w.enter c .retracting).edit fun x =>
    { x with
      cause := some cause
      rtr := true
      pulseTimer := some (dueAfter c.now x.timing.retractPulse)
      headTimer := some (.retract, dueAfter c.now x.timing.retractTime) }

/-- The spin-down condition of SPUN (R40). -/
def Bay.mustSpinDown (c : Ctx) (x : Bay) : Bool :=
  (x.merged = .stop) || x.ejectorOpen || (c.motion = .transit)

/-- HEAD_DWELL has passed since the last park time; an absent one counts as passed (R18, R40). -/
def Bay.dwellPassed (now : Micros) (x : Bay) : Bool :=
  match x.lastPark with
  | none => true
  | some t => x.timing.headDwell ≤ millis now - t

/-- The load condition of SPUN (R40); a capped bay starts no load (R157). -/
def Bay.mayLoad (c : Ctx) (x : Bay) : Bool :=
  (x.merged = .load) && (c.motion = .quiet) && x.dwellPassed c.now && !x.ejectorOpen

/-- The dwell timer of a SPUN bay that does not load now (R40): it runs to the end of HEAD_DWELL while
only the dwell holds the load back, and is abandoned otherwise. -/
def Bay.aimDwell (c : Ctx) (x : Bay) : Bay :=
  { x with
    dwellTimer :=
      if x.merged = .load ∧ c.motion = .quiet then
        x.lastPark.map fun t => 1000 * (t + x.timing.headDwell)
      else none }

/-- The tests of R40, made in SPUN at entry and at changes of demand, ejector and motion. -/
def Work.spunTest (c : Ctx) (w : Work) : Work :=
  if w.bay.mustSpinDown c then w.toSpinningDown c false
  else if w.bay.mayLoad c then w.toLoading c
  else w.edit (Bay.aimDwell c)

/-- Entry to SPUN with the checks of R41 in their order. -/
def Work.toSpun (c : Ctx) (fromSpinup : Bool) (w : Work) : Work :=
  if w.bay.fltOn then w.toFaulted c .carrierFault false
  else if w.bay.mustSpinDown c then w.toSpinningDown c false
  else
    let w := w.enter c .spun
    if fromSpinup && !w.bay.prkOn then w.toRetracting c .stray else w.spunTest c

/-- Entry to UNLOADING, complete at once when PRK is asserted (R87). -/
def Work.toUnloading (c : Ctx) (w : Work) : Work :=
  let w := (w.enter c .unloading).edit fun x =>
    { x with headTimer := some (.unload, dueAfter c.now x.timing.unloadTime) }
  if w.bay.prkOn then (w.edit (Bay.park c)).toSpun c false else w

/-- A retract ends with the heads parked and leaves by its cause (R91, R92, R50). -/
def Work.retractParked (c : Ctx) (w : Work) : Work :=
  let w' := w.edit fun x => { x.park c with rtr := false }
  match w.bay.cause with
  | some .clear =>
    if w.bay.fltOn then w'.toFaulted c .carrierFault false else w'.toSpinningDown c false
  | some (.fault kind) => w'.toFaulted c kind false
  | _ => w'.toSpun c false

/-- Entry to EMPTY: lines, timers and record cleared as R16, R30, R61, R71 and R74 give. -/
def Work.toEmpty (c : Ctx) (w : Work) : Work :=
  { bay :=
      Bay.relight c
        { w.bay.entering c .empty with
          demandA := .stop, demandB := .stop, flagA := false, flagB := false, snapshot := none,
          tries := 0, retry := false, lastPeriod := none, inRun := 0, outRun := 0, lastPark := none,
          restMark := false, spin := false, reference := none, absenceTimer := none,
          quietTimer := none, quietElapsed := false }
    facts := w.facts ++ [.entered .empty] }

/-! ### Responses to events -/

def Bay.clearRetry (x : Bay) : Bay := { x with retry := false }

/-- A response that belongs to one bay state. -/
def Work.inState (st : BayState) (act : Work → Work) (w : Work) : Work :=
  if w.bay.state = st then act w else w

/-- A demand column was written; `old` is the merged demand before (R8, R31, R32, R37, R40, R45, R46,
R82, R83, R85, R160). -/
def Work.demandWritten (c : Ctx) (old : Demand) (w : Work) : Work :=
  let new := w.bay.merged
  let settled := if old ≠ new ∧ new = .stop then w.edit Bay.clearRetry else w
  match w.bay.state with
  | .idle => settled.idleTest c
  | .released => w.releasedTest c
  | .queued => if old ≠ new ∧ new = .stop then settled.toIdle c else w
  | .spinningUp => if old ≠ new ∧ new = .stop then settled.toSpinningDown c false else w
  | .spun => if old ≠ new then w.spunTest c else w
  | .loading =>
    if old ≠ new ∧ new ≠ .load then
      if w.bay.phase = some .withdraw then w.toRetracting c (.fault .loadFailed)
      else w.toUnloading c
    else w
  | .ready => if old ≠ new ∧ new ≠ .load then w.toUnloading c else w
  | .spinningDown => settled
  | .empty | .unloading | .retracting | .faulted => w

/-- The motion state changed to the context's (R47, R83, R96). -/
def Work.motionChanged (c : Ctx) (w : Work) : Work :=
  let offPlatters : Bool := (c.motion = .rough) || (c.motion = .transit) || (c.motion = .blind)
  match w.bay.state with
  | .spinningUp =>
    if c.motion = .transit then (w.edit Bay.clearRetry).toSpinningDown c false else w
  | .spun => w.spunTest c
  | .loading =>
    if w.bay.phase = some .withdraw then
      if offPlatters || (c.motion = .alarm) then w.toRetracting c (.fault .loadFailed) else w
    else if c.motion = .alarm then w.toRetracting c .alarm
    else if offPlatters then w.toUnloading c
    else w
  | .ready =>
    if c.motion = .alarm then w.toRetracting c .alarm
    else if offPlatters then w.toUnloading c
    else w
  | .unloading => if c.motion = .alarm then w.toRetracting c .alarm else w
  | .empty | .idle | .queued | .retracting | .spinningDown | .faulted | .released => w

/-- The ejector field became open: the bay acts as R157 gathers. -/
def Work.ejectorOpened (c : Ctx) (w : Work) : Work :=
  match w.bay.state with
  | .idle => (w.edit Bay.clearRetry).idleTest c
  | .queued => (w.edit Bay.clearRetry).toIdle c
  | .spinningUp => (w.edit Bay.clearRetry).toSpinningDown c false
  | .spun => w.spunTest c
  | .loading =>
    if w.bay.phase = some .withdraw then w.toRetracting c (.fault .loadFailed) else w.toUnloading c
  | .ready => w.toUnloading c
  | .unloading => w.toRetracting c .eject
  | .spinningDown => w.edit Bay.clearRetry
  | .empty | .retracting | .faulted | .released => w

/-- The ejector field became closed: the cap is lifted (R158). -/
def Work.ejectorClosed (c : Ctx) (w : Work) : Work :=
  match w.bay.state with
  | .idle => w.idleTest c
  | .released => w.releasedTest c
  | .spun => w.spunTest c
  | _ => w

/-- A settled change of EJC (R154): the field, the LED, the facts, then the sequencer. -/
def Work.ejectorSettled (opened : Bool) (c : Ctx) (w : Work) : Work :=
  let w : Work :=
    { bay := Bay.relight c { w.bay with ejectorOpen := opened, ejcTimer := none }
      facts := w.facts ++ [.ejectorSet opened] }
  if opened then w.ejectorOpened c else w.ejectorClosed c

/-- The filtered FLT level became asserted (R49). -/
def Work.fltAsserted (c : Ctx) (w : Work) : Work :=
  match w.bay.state with
  | .queued | .spinningUp | .spun | .spinningDown | .released => w.toFaulted c .carrierFault false
  | .loading | .ready | .unloading => w.toRetracting c (.fault .carrierFault)
  | .empty | .idle | .retracting | .faulted => w

/-- A change of the filtered FLT level (R48, R49). Deasserting moves an IDLE bay that may now join (R31). -/
def Work.fltFiltered (on : Bool) (c : Ctx) (w : Work) : Work :=
  let w := w.edit fun x => { x with fltOn := on, fltTimer := none }
  if on then w.fltAsserted c
  else if w.bay.state = .idle then w.idleTest c
  else w

/-- The unload watch ends with PRK asserted (R55). -/
def Work.watchParked (c : Ctx) (w : Work) : Work :=
  let w := w.edit fun x => { x.park c with unloadWatch := none }
  if w.bay.restMark then w.toIdle c
  else if w.bay.spindownHeld then w.toFaulted c .noStop false
  else w

/-- PRK asserts (R55, R80, R86, R87, R91). -/
def Work.prkAsserted (c : Ctx) (w : Work) : Work :=
  match w.bay.state with
  | .spinningDown => if w.bay.unloadWatch.isSome then w.watchParked c else w
  | .loading =>
    if w.bay.phase = some .settle then (w.edit (Bay.park c)).toSpun c false else w
  | .ready | .unloading => (w.edit (Bay.park c)).toSpun c false
  | .retracting => if w.bay.pulseTimer.isSome then w else w.retractParked c
  | .empty | .idle | .queued | .spinningUp | .spun | .faulted | .released => w

/-- PRK drops (R42, R80). -/
def Work.prkDropped (c : Ctx) (w : Work) : Work :=
  match w.bay.state with
  | .spun => w.toRetracting c .stray
  | .loading => if w.bay.phase = some .seek then w.startSettle c else w
  | _ => w

/-- A change of the filtered PRK level (R77). -/
def Work.prkFiltered (on : Bool) (c : Ctx) (w : Work) : Work :=
  let w := w.edit fun x => { x with prkOn := on, prkTimer := none }
  if on then w.prkAsserted c else w.prkDropped c

/-- A settled change of PRS: insertion (R155) or removal (R156). -/
def Work.presenceSettled (present : Bool) (c : Ctx) (w : Work) : Work :=
  let w := w.edit fun x => { x with present := present, prsTimer := none }
  if present then
    if w.bay.state = .empty then
      let w := w.edit fun x => { x with restMark := true, quietElapsed := true, quietTimer := none }
      if w.bay.ejectorOpen then w.toReleased c else w.toIdle c
    else w
  else w.toEmpty c

/-- The at-speed event (R35). -/
def Work.atSpeed (c : Ctx) (w : Work) : Work :=
  (w.edit fun x => { x with tries := 0, retry := false, spinupTimer := none }).toSpun c true

/-- The speed-lost event (R42, R83, R84, R85, R89). -/
def Work.speedLost (c : Ctx) (w : Work) : Work :=
  match w.bay.state with
  | .spun => w.toFaulted c .speedLost false
  | .loading | .ready | .unloading => w.toRetracting c (.fault .speedLost)
  | _ => w

/-- The stopped event: the rest mark, and IDLE from SPINNING_DOWN with no unload watch (R43, R52, R55). -/
def Work.stopped (c : Ctx) (w : Work) : Work :=
  let w := w.edit fun x => { x with restMark := true }
  if w.bay.state = .spinningDown ∧ w.bay.unloadWatch = none then w.toIdle c else w

/-- SPINUP_LIMIT ran out (R36). Tries used stops at 4 (R18). -/
def Work.spinupTimedOut (c : Ctx) (w : Work) : Work :=
  let w := w.edit fun x => { x with tries := min 4 (x.tries + 1), spinupTimer := none }
  if w.bay.tries < w.bay.timing.spinupTries then
    (w.edit fun x => { x with retry := true }).toSpinningDown c false
  else w.toFaulted c .spinupFailed false

/-- SPINDOWN_LIMIT ran out (R44), held while the unload watch runs (R55). -/
def Work.spindownTimedOut (c : Ctx) (w : Work) : Work :=
  if w.bay.unloadWatch.isSome then
    w.edit fun x => { x with spindownTimer := none, spindownHeld := true }
  else w.toFaulted c .noStop false

/-- The dwell timer ran out: the load condition is tested (R40). -/
def Work.dwellRanOut (c : Ctx) (w : Work) : Work :=
  let w := w.edit fun x => { x with dwellTimer := none }
  if w.bay.mayLoad c then w.toLoading c else w

/-- The load timer ran out: the WITHDRAW phase (R81). -/
def Work.loadTimedOut (c : Ctx) (w : Work) : Work :=
  w.edit fun x =>
    { x with
      hld := false
      phase := some .withdraw
      headTimer := some (.withdraw, dueAfter c.now x.timing.unloadTime) }

/-- The withdraw watch ran out (R81). -/
def Work.withdrawRanOut (c : Ctx) (w : Work) : Work :=
  if w.bay.prkOn then (w.edit (Bay.park c)).toFaulted c .loadFailed false
  else w.toRetracting c (.fault .loadFailed)

/-- The retract pulse ends (R91). -/
def Work.pulseEnded (c : Ctx) (w : Work) : Work :=
  let w := w.edit fun x => { x with rtr := false, pulseTimer := none }
  if w.bay.prkOn then w.retractParked c else w

/-- RETRACT_TIME ran out (R91, R93). -/
def Work.retractRanOut (c : Ctx) (w : Work) : Work :=
  if w.bay.prkOn then w.retractParked c else w.toFaulted c .headsStuck true

/-- CLEAR FAULT accepted on a FAULTED bay with FLT deasserted (R53). -/
def Work.faultCleared (c : Ctx) (w : Work) : Work :=
  let w' := w.edit fun x => { x with tries := 0, fault := none }
  if w.bay.fault = some .headsStuck then w'.toRetracting c .clear else w'.toSpinningDown c true

/-- A grant reaches the bay (R33): the snapshot, SPIN, and the monitor started afresh (R61, R64, R65). -/
def Work.granted (sn : Snapshot) (c : Ctx) (w : Work) : Work :=
  ((w.edit fun x =>
      { x with
        snapshot := some sn
        spin := true
        restMark := false
        reference := none
        lastPeriod := none
        inRun := 0
        outRun := 0
        absenceTimer := some (c.now + 2 * sn.profile.pNom) }).enter c .spinningUp).edit fun x =>
    { x with spinupTimer := some (dueAfter c.now sn.profile.spinupLimit) }

/-- A port writes its own demand column of a present bay: a level above STOP clears its flag and ends its
releases (R6, R11, R12). An absent bay keeps STOP (R6). -/
def Work.writeDemand (p : Port) (level : Demand) (c : Ctx) (w : Work) : Work :=
  if w.bay.present then
    let old := w.bay.merged
    let w : Work :=
      if level = .stop then w.edit fun x => x.setDemand p .stop
      else
        { bay := ((w.bay.setDemand p level).setFlag p false).relight c
          facts := w.facts ++ [.demandRaised p] }
    w.demandWritten c old
  else w

/-- An accepted RELEASE BAY acts on its bay: STOP into the port's column and its flag set (R7, R162). -/
def Work.askRelease (p : Port) (c : Ctx) (w : Work) : Work :=
  if w.bay.state = .empty then w
  else
    let old := w.bay.merged
    (w.edit fun x => ((x.setDemand p .stop).setFlag p true).relight c).demandWritten c old

/-- PORT RESTART clears the port's flag for the bay; a RELEASED bay may leave (R17, R161). -/
def Work.restartFlag (p : Port) (c : Ctx) (w : Work) : Work :=
  let w := w.edit fun x => (x.setFlag p false).relight c
  if w.bay.state = .released then w.releasedTest c else w

end Sys2Proof.Machine
end

