-- ==== Sys2Proof/Machine/Arbitration.lean ====
section
/-!
DEFINITION. The spin-up arbiter: the draw, the limit, the head candidate and the grant
(05_spin_up_arbitration_and_the_power_budget.md), and the hold reason, which follows its view of the queue
(R20 to R24).
-/

namespace Sys2Proof.Machine

/-- A bay's contribution to the draw (R101). -/
def Bay.contribution (x : Bay) : Nat :=
  match x.state with
  | .spinningUp => x.timing.surge
  | .spun | .loading | .ready | .unloading | .retracting => x.timing.run
  | .faulted => if x.spin then x.timing.run else 0
  | .empty | .idle | .queued | .spinningDown | .released => 0

/-- The draw: the sum over the eight bays (R101). -/
def State.draw (s : State) : Nat := (s.bays.toList.map Bay.contribution).sum

/-- The limit for a supply source (R104). -/
def CaseSettings.limitFor (c : CaseSettings) (battery : Bool) : Nat :=
  if battery then c.limitBattery else c.limitInlet

/-- The working profile that the working profile map names for a bay (R108). -/
def Store.mapped (st : Store) (b : BayNo) : Working Profile :=
  st.workingProfiles.get (st.workingCase.values.profileMap.get b)

/-- A queued bay's candidate surge (R108). -/
def Store.candidateSurge (st : Store) (b : BayNo) : Nat := (st.mapped b).values.surge

/-- An entry fits alone (R108). -/
def State.fitsAlone (s : State) (b : BayNo) : Bool := s.store.candidateSurge b ≤ s.arbiter.limit

/-- The head candidate: the oldest queued entry that fits alone (R108). -/
def State.headCandidate (s : State) : Option BayNo := s.arbiter.queue.find? s.fitsAlone

/-- The draw plus the bay's candidate surge is no greater than the limit in force (R109). -/
def State.fitsBudget (s : State) (b : BayNo) : Bool :=
  s.draw + s.store.candidateSurge b ≤ s.arbiter.limit

/-- The motion gate (R106). -/
def Motion.grants : Motion → Bool
  | .quiet | .stirred | .rough => true
  | .transit | .alarm | .blind => false

/-- The gap has passed: no grant was made or the gap timer has expired (R105). -/
def Arbiter.gapPassed (a : Arbiter) : Bool := a.gapTimer.isNone

/-- The gap timer for a last grant time: stopped when the gap has passed already (R105, R113). -/
def gapTimerFor (now : Micros) (lastGrant : Option Millis) (gap : Millis) : Option Micros :=
  match lastGrant with
  | none => none
  | some t => if millis now - t < gap then some (1000 * (t + gap)) else none

/-- The profile snapshot a grant writes (R110). -/
def Store.snapshotFor (st : Store) (b : BayNo) : Snapshot :=
  { source := if (st.mapped b).fromRecord then .profile (st.workingCase.values.profileMap.get b)
              else .builtIn
    profile := (st.mapped b).values }

/-- The arbiter's share of a grant (R109); the bay leaves the queue at its entry to SPINNING_UP, within
the same event. -/
def State.noteGrant (s : State) : State :=
  { s with
    arbiter :=
      { s.arbiter with
        lastGrant := some (millis s.now)
        gapTimer := gapTimerFor s.now (some (millis s.now)) s.store.workingCase.values.grantGap } }

/-- The bay that an evaluation taken now would grant (R109). -/
def State.grantable (s : State) : Option BayNo :=
  if s.motion.state.grants && s.arbiter.gapPassed then
    s.headCandidate.filter s.fitsBudget
  else none

/-- A grant evaluation (R107, R109): the mark is cleared as it is taken, and it makes at most one grant. -/
def State.evaluate (s : State) : Event :=
  let s := { s with arbiter := { s.arbiter with evalOwed := false } }
  match s.grantable with
  | none => s.event
  | some b => (s.noteGrant.event).onBay b (Work.granted (s.store.snapshotFor b))

/-! ### The hold reason -/

/-- The states in which a bay is not at rest (R21). -/
def BayState.inService : BayState → Bool
  | .queued | .spinningUp | .spun | .loading | .ready | .unloading | .retracting
  | .spinningDown => true
  | _ => false

/-- The states with a timed operation in flight (R24). -/
def BayState.inProgress : BayState → Bool
  | .spinningUp | .spinningDown | .loading | .unloading | .retracting => true
  | _ => false

/-- The motion state refuses the step called for next (R22). -/
def Bay.motionHolds (m : Motion) (x : Bay) : Bool :=
  match x.state, x.merged with
  | .queued, .spin | .queued, .load => !m.grants
  | .spun, .load => m ≠ .quiet
  | .spinningDown, .spin | .spinningDown, .load => m = .transit
  | .unloading, .load | .retracting, .load => (m ≠ .quiet) && (m ≠ .stirred)
  | _, _ => false

/-- Fewer than GRANT_GAP ms have passed since the last grant (R23). -/
def State.inGap (s : State) : Bool :=
  match s.arbiter.lastGrant with
  | none => false
  | some t => millis s.now - t < s.store.workingCase.values.grantGap

/-- BUDGET (R23). -/
def State.budgetHolds (s : State) (b : BayNo) : Bool :=
  ((s.bay b).state = .queued) &&
    (!s.fitsAlone b || s.headCandidate ≠ some b || !s.fitsBudget b)

/-- DWELL (R24). -/
def Bay.dwellHolds (c : Ctx) (x : Bay) : Bool :=
  (x.state = .spun) && (x.merged = .load) && (c.motion = .quiet) && !x.dwellPassed c.now

/-- The hold reason of a bay: the first reason of R21 to R24 that applies (R20). -/
def State.holdReason (s : State) (b : BayNo) : Reason :=
  let x := s.bay b
  if !x.present then .empty
  else if x.state = .faulted || (x.state = .idle && x.fltOn) then .fault
  else if x.ejectorOpen then .ejected
  else if x.merged = .stop && x.state.inService then .noDemand
  else if x.peerHold then .releasePeer
  else if x.motionHolds s.motion.state then .motion
  else if s.budgetHolds b then .budget
  else if x.state = .queued && s.inGap then .gap
  else if x.dwellHolds s.ctx then .dwell
  else if x.state.inProgress then .inProgress
  else .none

end Sys2Proof.Machine
end

