-- ==== Sys2Proof/Machine/Requests.lean ====
section
/-!
DEFINITION. Requests and their ends: acceptance into a slot, what ends an outstanding request, its completion
record, and the release flag it clears (10_requests_completions_and_notices.md; R11, R163, R180).
-/

namespace Sys2Proof.Machine

/-- The bay a request names (R178). -/
def RequestKind.bay? : RequestKind → Option BayNo
  | .wait b _ => some b
  | .release b => some b
  | .write | .reload => none

def RequestKind.completion : RequestKind → CompletionKind
  | .wait _ _ => .wait
  | .release _ => .release
  | .write => .write
  | .reload => .reload

/-- How a request ends: termination, reason, and the state entered where a state entry ends it (R178). -/
structure Ending where
  termination : Termination
  reason : Reason
  entered : Option BayState
  deriving DecidableEq, Repr

/-- The completion record of a request that ends now (R178). -/
def State.record (s : State) (r : Request) (e : Ending) : Completion :=
  { tag := r.tag
    kind := r.kind.completion
    termination := e.termination
    reason := e.reason
    bay := r.kind.bay?
    bayState := r.kind.bay?.map fun b => e.entered.getD (s.bay b).state
    elapsed := min 65535 (millis s.now - r.accepted) }

/-- The states that meet a WAIT BAY level (R179). -/
def Demand.metBy (level : Demand) (st : BayState) : Bool :=
  match level, st with
  | .stop, .idle | .stop, .released | .stop, .empty => true
  | .spin, .spun => true
  | .load, .ready => true
  | _, _ => false

/-- How a fact of the bay ends a WAIT BAY for a level (R179, R180). -/
def waitEnding (level : Demand) (f : Fact) : Option Ending :=
  match f with
  | .entered st =>
    if level.metBy st then some ⟨.complete, .none, some st⟩
    else if level = .stop then none
    else if st = .faulted then some ⟨.aborted, .fault, some st⟩
    else if st = .empty then some ⟨.aborted, .removed, some st⟩
    else none
  | .ejectorSet true => if level = .stop then none else some ⟨.aborted, .ejected, none⟩
  | _ => none

/-- How a fact of the bay ends a RELEASE BAY of a port (R163). -/
def releaseEnding (p : Port) (f : Fact) : Option Ending :=
  match f with
  | .entered .released => some ⟨.complete, .none, some .released⟩
  | .entered .faulted => some ⟨.aborted, .fault, some .faulted⟩
  | .entered .empty => some ⟨.aborted, .removed, some .empty⟩
  | .demandRaised q => if q = p then some ⟨.aborted, .demandRaised, none⟩ else none
  | _ => none

/-- How one fact ends a request of a port. -/
def factEnding (p : Port) (r : Request) (f : BayNo × Fact) : Option Ending :=
  match r.kind with
  | .wait b level => if f.1 = b then waitEnding level f.2 else none
  | .release b => if f.1 = b then releaseEnding p f.2 else none
  | .write | .reload => none

/-- The first fact of an event that ends a request decides how it ends (R163, R180). -/
def eventEnding (p : Port) (facts : List (BayNo × Fact)) (r : Request) : Option Ending :=
  facts.findSome? (factEnding p r)

/-- An ended RELEASE BAY, but for COMPLETE, clears its port's flag when no other RELEASE BAY of the port
for the bay is outstanding (R11). -/
def State.clearFlagAfter (p : Port) (s : State) (r : Request) (e : Ending) : State :=
  match r.kind with
  | .release b =>
    if e.termination = .complete ∨ (s.port p).outstanding.any (fun q => q.kind = .release b) then s
    else s.setBay b (((s.bay b).setFlag p false).relight s.ctx)
  | _ => s

/-- End every outstanding request of a port that `ends` ends: the records join the completion queue in the
order of acceptance (R178), and flags clear (R11). -/
def State.endRequests (p : Port) (ends : Request → Option Ending) (s : State) : State :=
  let u := s.port p
  let closing := u.outstanding.filter fun r => (ends r).isSome
  let s' := s.setPort p
    { u with
      outstanding := u.outstanding.filter fun r => (ends r).isNone
      completions := u.completions ++
        u.outstanding.filterMap fun r => (ends r).map (s.record r) }
  closing.foldl (fun t r => match ends r with
    | some e => t.clearFlagAfter p r e
    | none => t) s'

/-- The ports take an event's facts: each ends the requests the facts end (R27, R178). -/
def Event.finish (e : Event) : State :=
  (e.st.endRequests .a (eventEnding .a e.facts)).endRequests .b (eventEnding .b e.facts)

/-- Outstanding requests plus queued records (R177). -/
def PortUnit.slotsUsed (u : PortUnit) : Nat := u.outstanding.length + u.completions.length

/-- The tag names an outstanding request (R177, R181). -/
def PortUnit.tagInUse (u : PortUnit) (tag : Byte) : Bool := u.outstanding.any fun r => r.tag = tag

/-- An accepted request takes a slot (R177). -/
def State.accept (p : Port) (tag : Byte) (kind : RequestKind) (due : Option Micros) (s : State) : State :=
  let u := s.port p
  s.setPort p
    { u with outstanding := u.outstanding ++ [{ tag, kind, accepted := millis s.now, due }] }

/-- The due moment of a request's timeout (R163, R180). -/
def timeoutDue (now : Micros) (timeout : Half) : Option Micros := some (dueAfter now timeout.toNat)

/-- End the outstanding request of a port with this tag, where there is one. -/
def State.endTagged (p : Port) (tag : Byte) (e : Ending) (s : State) : State :=
  s.endRequests p fun r => if r.tag = tag then some e else none

/-- A WAIT BAY is tested against the bay as it stands at acceptance (R179, R180). -/
def State.waitAtAcceptance (s : State) (b : BayNo) (level : Demand) : Option Ending :=
  let x := s.bay b
  if level.metBy x.state then some ⟨.complete, .none, none⟩
  else if level = .stop then none
  else if x.state = .faulted then some ⟨.aborted, .fault, none⟩
  else if x.state = .empty then some ⟨.aborted, .removed, none⟩
  else if x.ejectorOpen then some ⟨.aborted, .ejected, none⟩
  else none

/-- A RELEASE BAY still outstanding after its acceptance acted on the bay (R162). -/
def State.releaseAtAcceptance (s : State) (b : BayNo) : Option Ending :=
  match (s.bay b).state with
  | .empty => some ⟨.aborted, .removed, none⟩
  | .faulted => some ⟨.aborted, .fault, none⟩
  | .released => some ⟨.complete, .none, none⟩
  | _ => none

/-- A timeout of 0 ends a request in its acceptance, with the hold reason (R162, R180). -/
def State.orExpireAtOnce (s : State) (b : BayNo) (timeout : Half) (e : Option Ending) : Option Ending :=
  match e with
  | some x => some x
  | none => if timeout = 0 then some ⟨.expired, s.holdReason b, none⟩ else none

/-- End the request just accepted where its acceptance ends it. -/
def State.endAccepted (p : Port) (tag : Byte) (e : Option Ending) (s : State) : State :=
  match e with
  | some x => s.endTagged p tag x
  | none => s

end Sys2Proof.Machine
end

