-- ==== Sys2Proof/Machine/Expiry.lean ====
section
/-!
DEFINITION. Taking a timer's expiry: it needs the timer to run, and brings the clock at least to the timer's
due moment (log 2). A stopped or abandoned timer does not expire (R25, R75).
-/

namespace Sys2Proof.Machine

/-- Let one bay act as one event and let the ports end what it ends. -/
def State.bayEvent (b : BayNo) (act : Ctx → Work → Work) (s : State) : State :=
  (s.event.onBay b act).finish

/-- The expiry of a bay's timer. -/
def State.bayExpiry (b : BayNo) (timer : Bay → Option Micros) (act : Ctx → Work → Work) (s : State) :
    State :=
  match timer (s.bay b) with
  | none => s
  | some due => (s.advanceTo due).bayEvent b act

/-- The due moment of a head timer of the named kind, where it is the one in flight (R75). -/
def Bay.headDue (k : HeadTimer) (x : Bay) : Option Micros :=
  match x.headTimer with
  | some (k', due) => if k' = k then some due else none
  | none => none

/-- The expiry of an outstanding request's timeout, with the hold reason of its bay (R163, R180). -/
def State.requestExpiry (p : Port) (r : Request) (b : BayNo) (s : State) : State :=
  match r.due with
  | none => s
  | some due =>
    let s := s.advanceTo due
    s.endTagged p r.tag ⟨.expired, s.holdReason b, none⟩

/-- The outstanding request of a port with this tag. -/
def PortUnit.findTag (tag : Byte) (u : PortUnit) : Option Request :=
  u.outstanding.find? fun r => r.tag = tag

end Sys2Proof.Machine
end

