-- ==== Sys2Proof/Machine/ArbiterEvents.lean ====
section
/-!
DEFINITION. The arbiter's events and the LED's half-periods, one meaning each.
-/

namespace Sys2Proof.Machine

/-- The gap timer expires (R105). -/
def execGapTimerExpiry (s : State) : Host.Outcome State Fault Refusal :=
  match s.arbiter.gapTimer with
  | none => .next s
  | some due =>
    let s := s.advanceTo due
    .next { s with arbiter := { s.arbiter with gapTimer := none, evalOwed := true } }

/-- A grant evaluation, taken while evaluation owed is set (R107, R109). -/
def execGrantEvaluation (dt : Micros) (s : State) : Host.Outcome State Fault Refusal :=
  let s := s.advance dt
  .next (if s.arbiter.evalOwed then s.evaluate.finish else s)

/-- The half-period of an LED pattern ends (R165). -/
def Bay.toggleLed (now : Micros) (x : Bay) : Bay :=
  { x with led := !x.led, ledTimer := x.ledPattern.half.map (dueAfter now) }

/-- The half-period of a SLOW or FAST pattern ends (R165). -/
def execLedPatternToggle (b : BayNo) (s : State) : Host.Outcome State Fault Refusal :=
  match (s.bay b).ledTimer with
  | none => .next s
  | some due =>
    let s := s.advanceTo due
    .next (s.setBay b ((s.bay b).toggleLed s.now))

end Sys2Proof.Machine
end

