-- ==== Sys2Proof/Machine/Operands.lean ====
section
/-!
DEFINITION. Reading parameter bytes (R171, R195) and writing values as bytes (R166, R194): the operand forms
shared by the port commands.
-/

namespace Sys2Proof.Machine

/-- A bay number, or none when it lies outside 0 to 7 (R171). -/
def bayOf (n : Byte) : Option BayNo := if h : n.toNat < 8 then some ⟨n.toNat, h⟩ else none

/-- A shared-word index, or none when it lies outside 0 to 7 (R171). -/
def sharedOf (n : Byte) : Option (Fin 8) := if h : n.toNat < 8 then some ⟨n.toNat, h⟩ else none

/-- What a profile index names: a working profile, or the built-in profile for 4 (R172). -/
inductive ProfileIndex where
  | working (n : ProfileNo)
  | builtIn
  deriving DecidableEq, Repr

/-- A profile index, or none when it lies outside 0 to 4 (R171). -/
def profileOf (n : Byte) : Option ProfileIndex :=
  if h : n.toNat < 4 then some (.working ⟨n.toNat, h⟩)
  else if n = 4 then some .builtIn
  else none

/-- What a record number names (11.1, R171). -/
inductive RecordNo where
  | profile (n : ProfileNo)
  | caseRecord
  deriving DecidableEq, Repr

/-- A record number, or none when it lies outside 0 to 4 (R171). -/
def recordOf (n : Byte) : Option RecordNo :=
  if h : n.toNat < 4 then some (.profile ⟨n.toNat, h⟩)
  else if n = 4 then some .caseRecord
  else none

/-- How many content bytes a WRITE RECORD carries for a record (R175). -/
def RecordNo.contentBytes : RecordNo → Nat
  | .profile _ => 32
  | .caseRecord => 42

/-- A demand level, clamped to LOAD above 2 (R6); also the level of a WAIT BAY (R179). -/
def levelOf (n : Byte) : Demand :=
  match n.toNat with
  | 0 => .stop
  | 1 => .spin
  | _ => .load

/-- The bays named in a mask, in ascending order (R6). -/
def maskBays (mask : Byte) : List BayNo := bayNos.filter fun b => mask.getLsbD b.val

/-- A content byte of a WRITE RECORD as a number. -/
def byteAt (contents : List Byte) (i : Nat) : Nat := (contents.getD i 0).toNat

/-- A two-byte field of a WRITE RECORD, high byte first (R195). -/
def halfAt (contents : List Byte) (i : Nat) : Nat := 256 * byteAt contents (2 * i) + byteAt contents (2 * i + 1)

/-- The contents of a profile record, each field clamped (R187). -/
def profileFromBytes (contents : List Byte) : Profile := Profile.clamped (halfAt contents)

/-- The contents of the case record, each field clamped; the map's bytes follow the two-byte fields (R187). -/
def caseFromBytes (contents : List Byte) : CaseSettings :=
  CaseSettings.clamped fun i => if i < 17 then halfAt contents i else byteAt contents (34 + (i - 17))

/-- A number as one byte. -/
def toByte (n : Nat) : Byte := BitVec.ofNat 8 n

/-- A number as two bytes, high byte first (R166). -/
def toHalf (n : Nat) : List Byte := [toByte (n / 256), toByte n]

/-- A two-byte value as two bytes, high byte first (R166). -/
def halfBytes (h : Half) : List Byte := toHalf h.toNat

/-- The content bytes of a profile (R194). -/
def Profile.bytes (p : Profile) : List Byte := p.fields.flatMap toHalf

/-- The content bytes of the case record (R194). -/
def CaseSettings.bytes (c : CaseSettings) : List Byte :=
  c.fields.flatMap toHalf ++ c.profileMap.toList.map (fun n => toByte n.val)

/-- A bit at a place of a byte. -/
def bitAt (f : Bool) (place : Nat) : Nat := if f then 2 ^ place else 0

end Sys2Proof.Machine
end

