-- ==== Sys2Proof/Machine/Flags.lean ====
section
/-!
DEFINITION. Every condition and flag a port computes: the status byte (R168), the notice line and its sources
(R184), and the clearing a fully clocked frame carries out (R173).
-/

namespace Sys2Proof.Machine

/-- The settings store's write engine is busy (R168, 11.3). -/
def State.storeBusy (s : State) : Bool := s.store.engine ≠ .idle

/-- Motion alert: the motion state is ALARM or BLIND (R168). -/
def State.motionAlert (s : State) : Bool := (s.motion.state = .alarm) || (s.motion.state = .blind)

/-- At least one bay is FAULTED (R168). -/
def State.bayFaulted (s : State) : Bool := s.bays.toList.any fun x => x.state = .faulted

/-- Slots full: eight in use (R168, R177). -/
def PortUnit.slotsFull (u : PortUnit) : Bool := 8 ≤ u.slotsUsed

/-- The status byte of a port as its conditions stand (R168; bit places, 12). -/
def State.statusByte (s : State) (p : Port) : Byte :=
  let u := s.port p
  toByte
    (bitAt (!u.completions.isEmpty) 0 + bitAt (u.notice ≠ 0) 1 + bitAt u.discard 2 +
      bitAt s.motionAlert 3 + bitAt s.bayFaulted 4 + bitAt s.storeBusy 5 + bitAt u.slotsFull 6 +
      bitAt s.starting 7)

/-- Source B: at least one bay changed flag is set (R184). -/
def PortUnit.anyChanged (u : PortUnit) : Bool := u.changed.toList.any id

/-- The notice line is asserted while an enabled source holds (R184). -/
def PortUnit.noticeLine (u : PortUnit) : Bool :=
  (u.maskC && !u.completions.isEmpty) || (u.maskN && u.notice ≠ 0) ||
    (u.maskM && u.motionChanged) || (u.maskB && u.anyChanged)

/-- The status byte captured for a frame. -/
def Frame.status : Frame → Byte
  | .idle => 0
  | .begun st => st
  | .taken st _ _ _ => st

/-- The port's data output (ASDO or BSDO) is driven: its select line is low, a frame being in progress (R166). -/
def Frame.driven : Frame → Bool
  | .idle => false
  | .begun _ | .taken _ _ _ _ => true

/-- What the frame puts on a driven output as its byte `i`: the status byte, 0 while parameters come in, the
answer code and answer data, then 0 (R167). -/
def Frame.sentByte (f : Frame) (i : Nat) : Byte :=
  if i = 0 then f.status
  else
    match f with
    | .idle | .begun _ => 0
    | .taken _ n answer _ => if i ≤ n then 0 else answer.getD (i - (n + 1)) 0

/-- The port's data output during byte `i`: the byte sent while it is driven, none where it is left
high-impedance (R166, R167). -/
def Frame.outByte (f : Frame) (i : Nat) : Option Byte := if f.driven then some (f.sentByte i) else none

/-- The bytes a frame must complete for its pending clearing to be carried out (R173). -/
def Frame.fullLength : Frame → Nat
  | .idle | .begun _ => 0
  | .taken _ n answer _ => 1 + n + answer.length

/-- Carry out a pending clearing (R173). -/
def PortUnit.clearPending (c : PendingClear) (u : PortUnit) : PortUnit :=
  match c with
  | .nothing => u
  | .bayFlag b => { u with changed := u.changed.set b false }
  | .motionFlag => { u with motionChanged := false }
  | .headRecord => { u with completions := u.completions.tail }
  | .noticeBits bits => { u with notice := u.notice &&& ~~~bits }

/-- Select rises with `bytes` whole bytes completed (R169, R173). With no frame in progress it cannot. -/
def PortUnit.endFrame (bytes : Nat) (u : PortUnit) : PortUnit :=
  match u.frame with
  | .idle => u
  | .begun _ => { u with frame := .idle, discard := true }
  | .taken st n answer c =>
    let u' := { u with frame := .idle }
    if (Frame.taken st n answer c).fullLength ≤ bytes then u'.clearPending c else u'

/-- Select falls: the status byte is captured and the discard report cleared (R168, R169). -/
def State.selectFalls (p : Port) (s : State) : State :=
  s.setPort p { s.port p with frame := .begun (s.statusByte p), discard := false }

/-- The peer rings bits; those no longer fall to a pending clearing (R173, R182). -/
def PortUnit.ring (bits : Half) (u : PortUnit) : PortUnit :=
  { u with
    notice := u.notice ||| bits
    frame :=
      match u.frame with
      | .taken st n ans (.noticeBits returned) => .taken st n ans (.noticeBits (returned &&& ~~~bits))
      | f => f }

/-- The notice mask from its byte: bits 0 to 3 are C, N, M, B (12, Port layouts). -/
def PortUnit.setMask (mask : Byte) (u : PortUnit) : PortUnit :=
  { u with
    maskC := mask.getLsbD 0
    maskN := mask.getLsbD 1
    maskM := mask.getLsbD 2
    maskB := mask.getLsbD 3 }

/-- PORT RESTART in the port unit (R185). The frame and the discard report are left. -/
def PortUnit.restart (u : PortUnit) : PortUnit :=
  { u with
    outstanding := []
    completions := []
    notice := 0
    maskC := true
    maskN := true
    maskM := true
    maskB := true
    changed := Eight.all true
    motionChanged := true }

end Sys2Proof.Machine
end

