-- ==== Sys2Proof/Machine/Formats.lean ====
section
/-!
DEFINITION. The answer codes and the layouts of every answer (12_formats_and_line_reference.md, R194).
-/

namespace Sys2Proof.Machine

/-- The answer codes (12, Codes); `locked` is PROTECTED. -/
inductive AnswerCode where
  | accepted | unknownCommand | badParameter | slotsFull | tagInUse | storeBusy | locked | noSuchTag
  | notFaulted | faultActive | starting
  deriving DecidableEq, Repr

def AnswerCode.byte : AnswerCode → Byte
  | .accepted => 0xA0
  | .unknownCommand => 0xA1
  | .badParameter => 0xA2
  | .slotsFull => 0xA3
  | .tagInUse => 0xA4
  | .storeBusy => 0xA5
  | .locked => 0xA6
  | .noSuchTag => 0xA7
  | .notFaulted => 0xA8
  | .faultActive => 0xA9
  | .starting => 0xAA

def BayState.code : BayState → Nat
  | .empty => 0
  | .idle => 1
  | .queued => 2
  | .spinningUp => 3
  | .spun => 4
  | .loading => 5
  | .ready => 6
  | .unloading => 7
  | .retracting => 8
  | .spinningDown => 9
  | .faulted => 10
  | .released => 11

def Reason.code : Reason → Nat
  | .none => 0
  | .empty => 1
  | .fault => 2
  | .ejected => 3
  | .noDemand => 4
  | .releasePeer => 5
  | .motion => 6
  | .budget => 7
  | .gap => 8
  | .dwell => 9
  | .inProgress => 10
  | .removed => 11
  | .demandRaised => 12
  | .storeFault => 13

def FaultKind.code : FaultKind → Nat
  | .spinupFailed => 1
  | .speedLost => 2
  | .loadFailed => 3
  | .headsStuck => 4
  | .noStop => 5
  | .carrierFault => 6

/-- A fault kind's code, 0 for absent. -/
def faultCode : Option FaultKind → Nat
  | none => 0
  | some k => k.code

/-- A retract cause's code, 0 for absent. -/
def causeCode : Option Cause → Nat
  | none => 0
  | some .alarm => 1
  | some .eject => 2
  | some (.fault _) => 3
  | some .stray => 4
  | some .clear => 5

/-- The pending fault kind's code, 0 where there is none. -/
def pendingCode : Option Cause → Nat
  | some (.fault k) => k.code
  | _ => 0

def Motion.code : Motion → Nat
  | .quiet => 0
  | .stirred => 1
  | .rough => 2
  | .transit => 3
  | .alarm => 4
  | .blind => 5

def originCode : Option AlarmOrigin → Nat
  | none => 0
  | some .rough => 1
  | some .transit => 2
  | some .blind => 3

def statusCode : Option SensorStatus → Nat
  | none => 7
  | some .normal => 0
  | some .clipped => 1
  | some .selfTest => 2
  | some .failed => 3

def sourceCode : Option Snapshot → Nat
  | none => 7
  | some sn =>
    match sn.source with
    | .profile n => n.val
    | .builtIn => 4

def CompletionKind.code : CompletionKind → Nat
  | .wait => 1
  | .release => 2
  | .write => 3
  | .reload => 4

def Termination.code : Termination → Nat
  | .complete => 0
  | .expired => 1
  | .aborted => 2
  | .cancelled => 3

/-- Seconds in the present state, saturating at 255 (R4). -/
def Bay.secondsInState (now : Micros) (x : Bay) : Nat := min 255 ((now - x.since) / 1000000)

/-- ms since the last park time, saturating at 65535; 0 when absent (R18, 12). -/
def Bay.sincePark (now : Micros) (x : Bay) : Nat :=
  match x.lastPark with
  | none => 0
  | some t => min 65535 (millis now - t)

/-- READ BAY, twelve bytes (12). -/
def State.bayBytes (s : State) (b : BayNo) : List Byte :=
  let x := s.bay b
  [ toByte x.state.code,
    toByte (x.demandA.rank + 4 * x.demandB.rank + 16 * x.merged.rank + bitAt x.flagA 6 + bitAt x.flagB 7),
    toByte (bitAt x.present 0 + bitAt x.ejectorOpen 1 + bitAt x.fltOn 2 + bitAt x.prkOn 3 +
      bitAt x.retry 4 + 32 * x.tries),
    toByte ((s.holdReason b).code + 16 * faultCode x.fault),
    toByte (causeCode x.cause + 8 * pendingCode x.cause + bitAt x.lastPark.isSome 6),
    toByte (sourceCode x.snapshot + 8 * x.outRun) ] ++
  toHalf (x.lastPeriod.getD 0) ++
  [ toByte x.inRun, toByte (x.secondsInState s.now) ] ++
  toHalf (x.sincePark s.now)

/-- A queue entry's four bits, 0xF beyond the count (12). -/
def queueNibble (q : List BayNo) (i : Nat) : Nat :=
  match q[i]? with
  | some b => b.val
  | none => 15

/-- The working profile map as one number, two bits for each bay (12). -/
def mapNumber (m : Eight ProfileNo) : Nat :=
  (bayNos.map fun b => (m.get b).val * 4 ^ b.val).sum

/-- READ CASE, twenty-two bytes (12). -/
def State.caseBytes (s : State) : List Byte :=
  let m := s.motion
  let a := s.arbiter
  let w := s.store
  [ toByte (m.state.code + 8 * originCode m.alarmOrigin + bitAt a.battery 5 + bitAt w.keyService 6) ] ++
  toHalf (m.vib / 16) ++ toHalf (m.lastE.getD 0xFFFF) ++ toHalf (m.lastD.getD 0xFFFF) ++
  [ toByte m.fallRun, toByte m.recover, toByte s.receiver.missRun,
    toByte (statusCode s.receiver.lastStatus + bitAt w.workingProfiles.at0.fromRecord 3 +
      bitAt w.workingProfiles.at1.fromRecord 4 + bitAt w.workingProfiles.at2.fromRecord 5 +
      bitAt w.workingProfiles.at3.fromRecord 6 + bitAt w.workingCase.fromRecord 7),
    toByte a.queue.length ] ++
  ([0, 1, 2, 3].map fun i =>
    toByte (16 * queueNibble a.queue (2 * i) + queueNibble a.queue (2 * i + 1))) ++
  toHalf s.draw ++ toHalf a.limit ++ toHalf (mapNumber w.workingCase.values.profileMap)

/-- SENSE LINES, two bytes (12). -/
def State.lineBytes (s : State) (b : BayNo) : List Byte :=
  let x := s.bay b
  [ toByte (bitAt x.spin 0 + bitAt x.hld 1 + bitAt x.rtr 2 + bitAt x.led 3 + bitAt x.prs 4 +
      bitAt x.idx 5 + bitAt x.prk 6 + bitAt x.flt 7),
    toByte (bitAt x.ejc 0 + bitAt s.receiver.mrx 1 + bitAt s.arbiter.srcRaw 2 + bitAt s.store.keyRaw 3) ]

/-- TAKE COMPLETION, eight bytes (12). -/
def Completion.bytes (r : Completion) : List Byte :=
  [ r.tag, toByte r.kind.code, toByte r.termination.code, toByte r.reason.code,
    (match r.bay with
      | some b => toByte b.val
      | none => 0xFF),
    (match r.bayState with
      | some st => toByte st.code
      | none => 0xFF) ] ++
  toHalf r.elapsed

/-- The record of kind EMPTY (R178, 12). -/
def emptyCompletion : List Byte := [0, 0, 0, 0, 0xFF, 0xFF, 0, 0]

/-- The flags byte of READ STORED (12). -/
def storedFlags (lock valid : Bool) : Byte := toByte (bitAt lock 0 + bitAt valid 1)

/-- READ STORED: the flags byte, then the contents (R193). -/
def Store.storedBytes (st : Store) : RecordNo → List Byte
  | .profile n =>
    let r := st.profiles.get n
    storedFlags r.lock r.valid :: r.contents.bytes
  | .caseRecord => storedFlags st.caseRecord.lock st.caseRecord.valid :: st.caseRecord.contents.bytes

/-- READ PROFILE (R172). -/
def Store.profileBytes (st : Store) : ProfileIndex → List Byte
  | .working n => (st.workingProfiles.get n).values.bytes
  | .builtIn => builtInProfile.bytes

/-! ### Taking a command (R167, R170) -/

/-- Fix the answer of a port's frame: the answer code and data, after `params` parameter bytes (R167). -/
def State.answer (p : Port) (params : Nat) (code : AnswerCode) (data : List Byte) (clear : PendingClear)
    (s : State) : State :=
  let u := s.port p
  s.setPort p { u with frame := .taken u.frame.status params (code.byte :: data) clear }

/-- A refusal or an answer with no data (R171). -/
def State.reply (p : Port) (params : Nat) (code : AnswerCode) (s : State) : State :=
  s.answer p params code [] .nothing

/-- A port takes a command: while starting it is answered STARTING at byte 1 and has no effect (R170). -/
def State.takeCommand (p : Port) (act : State → State) (s : State) : State :=
  if s.starting then s.reply p 0 .starting else act s

end Sys2Proof.Machine
end

