-- ==== Sys2Proof/Machine/FrameEvents.lean ====
section
/-!
DEFINITION. The frame events of a port (R168 to R171, R173), one meaning each.
-/

namespace Sys2Proof.Machine

/-- A command code that names no command (R171). -/
def execUnknownCommand (dt : Micros) (p : Port) (s : State) : Host.Outcome State Fault Refusal :=
  .next <| (s.advance dt).takeCommand p fun s => s.reply p 0 .unknownCommand

/-- A frame whose byte 0 completes while the part is starting (R170). Once it has started there is none. -/
def execStartingFrame (dt : Micros) (p : Port) (s : State) : Host.Outcome State Fault Refusal :=
  .next <| (s.advance dt).takeCommand p id

/-- Select falls (R168, R169). -/
def execSelectFall (dt : Micros) (p : Port) (s : State) : Host.Outcome State Fault Refusal :=
  .next ((s.advance dt).selectFalls p)

/-- Select rises with `bytes` whole bytes completed (R169, R173). -/
def execFrameEnd (dt : Micros) (p : Port) (bytes : Nat) (s : State) : Host.Outcome State Fault Refusal :=
  let s := s.advance dt
  .next (s.setPort p ((s.port p).endFrame bytes))

end Sys2Proof.Machine
end

