-- ==== Sys2Proof/Machine/HeadEvents.lean ====
section
/-!
DEFINITION. The head timers (R75), one meaning each. A head timer belongs to the state it runs in.
-/

namespace Sys2Proof.Machine

/-- The load timer expires (R81). -/
def execLoadTimerExpiry (b : BayNo) (s : State) : Host.Outcome State Fault Refusal :=
  .next <| s.bayExpiry b (Bay.headDue .load) fun c => Work.inState .loading (Work.loadTimedOut c)

/-- The settle timer expires (R80). -/
def execSettleTimerExpiry (b : BayNo) (s : State) : Host.Outcome State Fault Refusal :=
  .next <| s.bayExpiry b (Bay.headDue .settle) fun c => Work.inState .loading (Work.toReady c)

/-- The withdraw watch expires (R81). -/
def execWithdrawWatchExpiry (b : BayNo) (s : State) : Host.Outcome State Fault Refusal :=
  .next <| s.bayExpiry b (Bay.headDue .withdraw) fun c => Work.inState .loading (Work.withdrawRanOut c)

/-- The unload timer expires (R88). -/
def execUnloadTimerExpiry (b : BayNo) (s : State) : Host.Outcome State Fault Refusal :=
  .next <| s.bayExpiry b (Bay.headDue .unload) fun c =>
    Work.inState .unloading (Work.toRetracting c (.fault .headsStuck))

/-- The retract pulse ends (R91). -/
def execPulseTimerExpiry (b : BayNo) (s : State) : Host.Outcome State Fault Refusal :=
  .next <| s.bayExpiry b Bay.pulseTimer fun c => Work.inState .retracting (Work.pulseEnded c)

/-- RETRACT_TIME runs out (R91, R93). -/
def execRetractTimerExpiry (b : BayNo) (s : State) : Host.Outcome State Fault Refusal :=
  .next <| s.bayExpiry b (Bay.headDue .retract) fun c => Work.inState .retracting (Work.retractRanOut c)

end Sys2Proof.Machine
end

