-- ==== Sys2Proof/Machine/Receiver.lean ====
section
/-!
DEFINITION. The motion classifier (07_motion_classification.md): the arithmetic of a sample, the motion machine
and what a motion change reaches; then the motion receiver (06_motion_sensor_receiver.md): characters,
frames and sample accounting.
-/

namespace Sys2Proof.Machine

/-! ### The arithmetic of one sample -/

/-- The magnitude estimate E = L + floor(3 × (M + S) / 8) over the sorted magnitudes (R132). -/
def magnitude (x y z : Int) : Nat :=
  let a := x.natAbs
  let b := y.natAbs
  let c := z.natAbs
  let largest := max a (max b c)
  largest + 3 * (a + b + c - largest) / 8

/-- The deviation D = |E − 250| (R133). -/
def deviation (e : Nat) : Nat := (e - 250) + (250 - e)

/-- The vibration update with k = VIB_SHIFT (R135). -/
def vibNext (k v d : Nat) : Nat := v - v / 2 ^ k + 16 * d / 2 ^ k

/-- One accepted sample (R131). -/
structure Sample where
  x : Int
  y : Int
  z : Int
  clipped : Bool
  deriving DecidableEq, Repr

/-- What the arithmetic of a sample fixes before the machine acts (R137, step 1). -/
structure Judged where
  event : Bool
  calm : Bool
  rough : Bool
  deriving DecidableEq, Repr

/-- The sample's E. -/
def Sample.e (p : Sample) : Nat := magnitude p.x p.y p.z

/-- The sample's D. -/
def Sample.d (p : Sample) : Nat := deviation p.e

/-- The sample carries a shock (R133). -/
def Sample.shock (cs : CaseSettings) (p : Sample) : Bool := p.clipped || cs.shockLevel ≤ p.d

/-- The fall run after the sample (R134). -/
def MotionRecord.fallNext (cs : CaseSettings) (p : Sample) (m : MotionRecord) : Nat :=
  if p.e ≤ cs.fallLevel then min 255 (m.fallRun + 1) else 0

/-- The sample carries a free-fall event (R134). -/
def MotionRecord.freeFall (cs : CaseSettings) (p : Sample) (m : MotionRecord) : Bool :=
  (cs.fallRun ≤ m.fallNext cs p) && !(m.fallReported && p.e ≤ cs.fallLevel)

/-- The record counts toward leaving BLIND (R137, step 2; R147). -/
def MotionRecord.counting (m : MotionRecord) : Bool :=
  (m.state = .blind) || ((m.state = .alarm) && (m.alarmOrigin = some .blind))

/-- Steps 1 and 2 of R137: the sample's figures, V, the fall run and the recover count. -/
def MotionRecord.measure (cs : CaseSettings) (p : Sample) (m : MotionRecord) : MotionRecord :=
  { m with
    lastE := some p.e
    lastD := some p.d
    fallRun := m.fallNext cs p
    fallReported := (m.fallReported && p.e ≤ cs.fallLevel) || m.freeFall cs p
    vib := vibNext cs.vibShift m.vib p.d
    recover := if m.counting then min 255 (m.recover + 1) else m.recover }

/-- The tests of a sample (R133, R134, R136) on the record before it and the vibration level after it. -/
def MotionRecord.judge (cs : CaseSettings) (p : Sample) (m : MotionRecord) : Judged :=
  let level := vibNext cs.vibShift m.vib p.d / 16
  { event := p.shock cs || m.freeFall cs p
    calm := level < cs.quietLevel
    rough := cs.effectiveRough ≤ level }

/-! ### The motion machine -/

/-- Enter a state with no mark set: the marks of the state left are dropped (log 15). -/
def MotionRecord.bare (st : Motion) (m : MotionRecord) : MotionRecord :=
  { m with
    state := st
    calmSince := none, smoothSince := none, roughSince := none, alarmAt := none, alarmOrigin := none }

/-- Entry to STIRRED (R141) or TRANSIT (R144). -/
def MotionRecord.enterCalming (st : Motion) (t : Millis) (j : Judged) (m : MotionRecord) : MotionRecord :=
  { m.bare st with calmSince := if j.calm then some t else none }

/-- Entry to ROUGH (R142). -/
def MotionRecord.enterRough (t : Millis) (j : Judged) (m : MotionRecord) : MotionRecord :=
  { m.bare .rough with roughSince := some t, smoothSince := if j.rough then none else some t }

/-- Entry to ALARM (R138). -/
def MotionRecord.enterAlarm (t : Millis) (o : AlarmOrigin) (m : MotionRecord) : MotionRecord :=
  { m.bare .alarm with alarmAt := some t, alarmOrigin := some o }

/-- BLIND_RECOVER consecutive samples were accepted (R147). -/
def MotionRecord.trusted (cs : CaseSettings) (m : MotionRecord) : Bool := cs.blindRecover ≤ m.recover

/-- In ALARM with origin BLIND the origin becomes ROUGH once trust is earned (R147). -/
def MotionRecord.earnOrigin (cs : CaseSettings) (m : MotionRecord) : MotionRecord :=
  if m.alarmOrigin = some .blind ∧ m.trusted cs then { m with alarmOrigin := some .rough } else m

/-- The exit from ALARM to its origin (R139). A return to BLIND is no BLIND entry. -/
def MotionRecord.leaveAlarm (t : Millis) (j : Judged) (m : MotionRecord) : MotionRecord :=
  match m.alarmOrigin with
  | some .transit => m.enterCalming .transit t j
  | some .blind => m.bare .blind
  | _ => m.enterRough t j

/-- A sample with a shock or a free-fall event (R138). -/
def MotionRecord.alarmed (cs : CaseSettings) (t : Millis) (m : MotionRecord) : MotionRecord :=
  match m.state with
  | .quiet | .stirred | .rough => m.enterAlarm t .rough
  | .transit => m.enterAlarm t .transit
  | .blind => m.enterAlarm t (if m.trusted cs then .rough else .blind)
  | .alarm => { m.earnOrigin cs with alarmAt := some t }

/-- The elapsed time from a mark, where it is present, has reached a length. -/
def reached (t : Millis) (mark : Option Millis) (len : Millis) : Bool :=
  match mark with
  | none => false
  | some u => len ≤ t - u

/-- A sample with neither a shock nor a free-fall event (R139 to R144, R147). -/
def MotionRecord.calmly (cs : CaseSettings) (t : Millis) (j : Judged) (m : MotionRecord) : MotionRecord :=
  match m.state with
  | .quiet =>
    if j.rough then m.enterRough t j
    else if j.calm then m
    else m.enterCalming .stirred t j
  | .stirred =>
    if j.rough then m.enterRough t j
    else if j.calm then
      let since := m.calmSince.getD t
      if cs.quietDwell ≤ t - since then m.bare .quiet else { m with calmSince := some since }
    else { m with calmSince := none }
  | .rough =>
    let smooth := if j.rough then none else some (m.smoothSince.getD t)
    let m' := { m with smoothSince := smooth }
    if reached t smooth cs.roughDwell then m'.enterCalming .stirred t j
    else if reached t m.roughSince (1000 * cs.transitDwell) then m'.enterCalming .transit t j
    else m'
  | .transit =>
    if j.calm then
      let since := m.calmSince.getD t
      if 1000 * cs.transitExitDwell ≤ t - since then m.enterCalming .stirred t j
      else { m with calmSince := some since }
    else { m with calmSince := none }
  | .alarm =>
    let m' := m.earnOrigin cs
    if reached t m.alarmAt cs.alarmHold then m'.leaveAlarm t j else m'
  | .blind => if m.trusted cs then m.enterRough t j else m

/-- An accepted sample taken at `t` (R137). -/
def MotionRecord.accept (cs : CaseSettings) (t : Millis) (p : Sample) (m : MotionRecord) : MotionRecord :=
  let j := m.judge cs p
  let m' := m.measure cs p
  if j.event then m'.alarmed cs t else m'.calmly cs t j

/-- A missing sample (R137, R147). -/
def MotionRecord.miss (m : MotionRecord) : MotionRecord :=
  if m.counting then { m with recover := 0 } else m

/-- A BLIND entry or re-entry (R145, R146). -/
def MotionRecord.blinded (cs : CaseSettings) (m : MotionRecord) : MotionRecord :=
  { m.bare .blind with
    vib := 16 * cs.effectiveRough
    fallRun := 0
    fallReported := false
    recover := 0 }

/-! ### What a motion change reaches (R149) -/

/-- Install a motion record; a change of motion state is handed to the arbiter, both ports and every
sequencer (R149). -/
def Event.setMotion (m : MotionRecord) (e : Event) : Event :=
  let s := { e.st with motion := m }
  if m.state = e.st.motion.state then { e with st := s }
  else
    Event.onBays bayNos Work.motionChanged
      { e with
        st := { s.oweEvaluation with
          portA := s.portA.setMotionChanged
          portB := s.portB.setMotionChanged } }

/-- The working case settings the classifier and receiver read (R129, R151). -/
def State.caseSettings (s : State) : CaseSettings := s.store.workingCase.values

def State.editReceiver (f : Receiver → Receiver) (s : State) : State :=
  { s with receiver := f s.receiver }

def Event.editReceiver (f : Receiver → Receiver) (e : Event) : Event :=
  { e with st := e.st.editReceiver f }

/-- A BLIND request reaches the classifier; the receiver's expected sequence becomes unknown (R128, R145). -/
def Event.blindRequest (e : Event) : Event :=
  (e.editReceiver fun r => { r with expected := none }).setMotion
    (e.st.motion.blinded e.st.caseSettings)

/-! ### Sample accounting (R124 to R126) -/

/-- One missing sample, with the BLIND request it may make (R126). -/
def Event.missing (e : Event) : Event :=
  let run := min 255 (e.st.receiver.missRun + 1)
  let asks : Bool := (e.st.caseSettings.missLimit ≤ run) && !e.st.receiver.limitMark
  let e' := (e.editReceiver fun r =>
    { r with missRun := run, limitMark := r.limitMark || asks }).setMotion e.st.motion.miss
  if asks then e'.blindRequest else e'

/-- Missing samples one by one. -/
def Event.missingTimes : Nat → Event → Event
  | 0, e => e
  | n + 1, e => (e.missing).missingTimes n

/-- One discarded frame (R124): the open frame is gone, the expected sequence steps where it is known, and
one missing sample is counted. -/
def Event.discardFrame (e : Event) : Event :=
  (e.editReceiver fun r =>
    { r with openFrame := none, expected := r.expected.map fun s => (s + 1) % 16 }).missing

/-- An axis value from its low and high characters: twelve bits in two's complement (R123). -/
def axisValue (low high : Nat) : Int :=
  let n := low + 256 * (high % 16)
  if n < 2048 then (n : Int) else (n : Int) - 4096

/-- The header's fields (R195). -/
def headerSequence (value : Nat) : Nat := value % 16

def headerStatus (value : Nat) : SensorStatus :=
  match value / 16 % 4 with
  | 0 => .normal
  | 1 => .clipped
  | 2 => .selfTest
  | _ => .failed

def headerKind (value : Nat) : Nat := value / 64 % 4

/-- The axis characters as a sample: X low, X high, Y low, Y high, Z low, Z high (R123). -/
def sampleOf (axes : List Nat) (clipped : Bool) : Sample :=
  let byte := fun i => axes.getD i 0
  { x := axisValue (byte 0) (byte 1)
    y := axisValue (byte 2) (byte 3)
    z := axisValue (byte 4) (byte 5)
    clipped := clipped }

/-- An accepted sample (R125, R126): the miss run and limit mark clear, and the classifier takes it. -/
def Event.accepted (p : Sample) (e : Event) : Event :=
  (e.editReceiver fun r => { r with missRun := 0, limitMark := false }).setMotion
    (e.st.motion.accept e.st.caseSettings (millis e.st.now) p)

/-- A complete frame is taken by its status (R125). -/
def Event.frameResult (status : SensorStatus) (axes : List Nat) (e : Event) : Event :=
  let e := e.editReceiver fun r => { r with lastStatus := some status }
  match status with
  | .normal => e.accepted (sampleOf axes false)
  | .clipped => e.accepted (sampleOf axes true)
  | .selfTest | .failed => e.missing

/-- A complete frame (R124, R125, R128): its gap, its own result, then the expected sequence. -/
def Event.frameComplete (header : Nat) (axes : List Nat) (e : Event) : Event :=
  let seq := headerSequence header
  let gap :=
    match e.st.receiver.expected with
    | none => 0
    | some x => (seq + 16 - x) % 16
  let e := (e.editReceiver fun r => { r with openFrame := none }).missingTimes gap
  (e.frameResult (headerStatus header) axes).editReceiver fun r =>
    { r with expected := some ((seq + 1) % 16) }

/-! ### Frame assembly (R120 to R122) -/

/-- A clean marked character (R120, R122). -/
def Event.header (value : Nat) (e : Event) : Event :=
  let e := if e.st.receiver.openFrame.isSome then e.discardFrame else e
  if headerKind value = 0 then
    e.editReceiver fun r => { r with openFrame := some { header := value, axes := [] } }
  else e.discardFrame

/-- A clean unmarked character (R120). -/
def Event.axis (value : Nat) (e : Event) : Event :=
  match e.st.receiver.openFrame with
  | none => e
  | some f =>
    let axes := f.axes ++ [value]
    if axes.length < 6 then
      e.editReceiver fun r => { r with openFrame := some { f with axes := axes } }
    else e.frameComplete f.header axes

/-- A noisy or framing-error character (R121). -/
def Event.spoil (e : Event) : Event :=
  if e.st.receiver.openFrame.isSome then e.discardFrame else e

/-- A complete character restarts the silence timer (R118, R119). -/
def State.restartSilence (s : State) : State :=
  s.editReceiver fun r =>
    { r with silenceTimer := some (dueAfter s.now s.caseSettings.silenceLimit) }

/-- A finished character (R118): the silence timer where it is complete, then frame assembly. -/
def State.character (samples : BitVec 33) (s : State) : Event :=
  let s := if charStop samples then s.restartSilence else s
  if charNoisy samples || !charStop samples then s.event.spoil
  else if charMarked samples then s.event.header (charValue samples)
  else s.event.axis (charValue samples)

/-- What the sampling found on the line: a finished character is an event (R118), a false start has no effect
(R117). -/
def State.takeFact (s : State) : LineFact → State
  | .falseStart => s
  | .finished samples => (s.character samples).finish

/-- The receiver samples MRX (R117): the line phase goes on, and what the samples finish is taken in their order. -/
def State.sampleLine (line : List Bool) (s : State) : State :=
  (s.receiver.linePhase.facts line).foldl State.takeFact
    (s.editReceiver fun r => { r with linePhase := r.linePhase.after line, mrx := line.getLastD r.mrx })

/-- The silence event (R127). -/
def State.silence (s : State) : Event :=
  let s := s.editReceiver fun r => { r with silenceTimer := none }
  s.event.spoil.blindRequest

end Sys2Proof.Machine
end

