-- ==== Sys2Proof/Config.lean ====
section
/-!
DEFINITION. The free values: what the spec leaves open and the part goes on with. Each is an opaque
constant, so no proof can see what it is. The first argument is the number of values drawn before it
(State.draws), the second the field it is drawn for.
-/

namespace Sys2Proof.Config

/-- After a part reset cut a write, does field `field` hold the new value? R193: the contents "may mix
old and new fields" (log 9). Field 0 is the lock flag. -/
opaque tornFieldIsNew : Nat → Nat → Bool

/-- After a write whose verification disagreed, what field `field` holds before its range is applied:
R189 states only that the record stays invalid (log 10). -/
opaque unverifiedField : Nat → Nat → Nat

/-- After a write whose verification disagreed, whether the lock flag is set (log 10). -/
opaque unverifiedLock : Nat → Bool

end Sys2Proof.Config
end

