-- ==== Sys2Proof/Machine/StoreOps.lean ====
section
/-!
DEFINITION. The settings store's shared operations (11_settings_store.md): protection, the write engine, what a
write leaves behind, and installing the working copies.
-/

namespace Sys2Proof.Machine

/-- How long a write takes (R189). -/
def writeTime : Millis := 20

/-- How long after the end of reset the start-up load completes at the latest (R191). -/
def startupTime : Millis := 5

/-- How long a reload takes (R191). -/
def reloadTime : Millis := 2

/-- A record counts as locked: valid with its lock flag set (R187, R188). -/
def Stored.protectedNow {α : Type} (r : Stored α) : Bool := r.valid && r.lock

/-- PROTECTED applies to a record: the key at LOCK and the record locked (R188). -/
def Store.refusesWrite (st : Store) (r : RecordNo) : Bool :=
  !st.keyService &&
    match r with
    | .profile n => (st.profiles.get n).protectedNow
    | .caseRecord => st.caseRecord.protectedNow

/-- What a WRITE RECORD is to write, clamped (R187, R189). -/
def writeTarget (r : RecordNo) (contents : List Byte) : WriteTarget :=
  match r with
  | .profile n => .profile n (profileFromBytes contents)
  | .caseRecord => .caseRecord (caseFromBytes contents)

/-- Change a stored profile record. -/
def Store.editProfile (n : ProfileNo) (f : Stored Profile → Stored Profile) (st : Store) : Store :=
  { st with profiles := st.profiles.set n (f (st.profiles.get n)) }

/-- Change the stored case record. -/
def Store.editCase (f : Stored CaseSettings → Stored CaseSettings) (st : Store) : Store :=
  { st with caseRecord := f st.caseRecord }

/-- The first step of a write: the commit marker is cleared and the engine is busy (R189). -/
def Store.startWrite (t : WriteTarget) (lock : Bool) (owner : Port) (due : Micros) (st : Store) : Store :=
  let st := { st with engine := .write t lock owner due }
  match t with
  | .profile n _ => st.editProfile n fun r => { r with valid := false }
  | .caseRecord _ => st.editCase fun r => { r with valid := false }

/-- A write whose verification agreed: contents, lock flag and commit marker (R189). -/
def Store.commitWrite (t : WriteTarget) (lock : Bool) (st : Store) : Store :=
  match t with
  | .profile n p => st.editProfile n fun _ => { contents := p, lock := lock, valid := true }
  | .caseRecord c => st.editCase fun _ => { contents := c, lock := lock, valid := true }

/-- A write whose verification disagreed: the marker stays clear; what the record holds is free, each field
within its range (R189, R187; DESIGN CHOICE, log 10). -/
def Store.failWrite (t : WriteTarget) (draw : Nat) (st : Store) : Store :=
  match t with
  | .profile n _ => st.editProfile n fun _ =>
      { contents := Profile.clamped (Config.unverifiedField draw)
        lock := Config.unverifiedLock draw
        valid := false }
  | .caseRecord _ => st.editCase fun _ =>
      { contents := CaseSettings.clamped (Config.unverifiedField draw)
        lock := Config.unverifiedLock draw
        valid := false }

/-- A field of a record whose write was cut: the new value or the old (R193, log 9). -/
def tornField (draw : Nat) (old new : List Nat) (i : Nat) : Nat :=
  if Config.tornFieldIsNew draw (i + 1) then new.getD i 0 else old.getD i 0

/-- The lock flag of a record whose write was cut (R193, log 9). -/
def tornLock (draw : Nat) (old new : Bool) : Bool :=
  if Config.tornFieldIsNew draw 0 then new else old

/-- A part reset stops a write: the record is left invalid, its contents old and new fields mixed
(R190, R193). -/
def Store.tearWrite (t : WriteTarget) (lock : Bool) (draw : Nat) (st : Store) : Store :=
  match t with
  | .profile n p => st.editProfile n fun r =>
      { contents := Profile.clamped (tornField draw r.contents.fields p.fields)
        lock := tornLock draw r.lock lock
        valid := false }
  | .caseRecord c => st.editCase fun r =>
      { contents := CaseSettings.clamped (tornField draw r.contents.allFields c.allFields)
        lock := tornLock draw r.lock lock
        valid := false }

/-- A working copy from its record: its contents when valid, the built-in values otherwise (R191). -/
def Stored.install {α : Type} (builtIn : α) (r : Stored α) : Working α :=
  if r.valid then { values := r.contents, fromRecord := true }
  else { values := builtIn, fromRecord := false }

/-- All five working copies are installed at once and the engine becomes idle (R191, R192). -/
def Store.installAll (st : Store) : Store :=
  { st with
    workingProfiles := st.profiles.map (Stored.install builtInProfile)
    workingCase := st.caseRecord.install builtInCase
    engine := .idle }

/-- The arbiter takes the limit of the working case record (R98, R104). -/
def State.takeLimit (s : State) : State :=
  { s with
    arbiter := { s.arbiter with limit := s.caseSettings.limitFor s.arbiter.battery } }

/-- What the arbiter does at the completion of a RELOAD (R113). -/
def State.takeReload (s : State) : State :=
  { s with
    arbiter :=
      { s.arbiter with
        limit := s.caseSettings.limitFor s.arbiter.battery
        gapTimer := gapTimerFor s.now s.arbiter.lastGrant s.caseSettings.grantGap
        evalOwed := true } }

/-- The completion of the start-up load (R191): the copies, the limit, V (R130) and the receiver's start
(R116, R119). -/
def State.completeStartup (s : State) : State :=
  let s := ({ s with store := s.store.installAll }).takeLimit
  ({ s with motion := { s.motion with vib := 16 * s.caseSettings.effectiveRough } }).restartSilence

/-- How a store request ends; it names no bay (R178). -/
def storeEnding (kind : RequestKind) (e : Ending) (r : Request) : Option Ending :=
  if r.kind = kind then some e else none

/-- The end of a write (R189, R190): the record, the engine idle, and the request where it is still
outstanding. -/
def State.endWrite (t : WriteTarget) (lock : Bool) (owner : Port) (agrees : Bool) (s : State) : State :=
  if agrees then
    ({ s with store := { s.store.commitWrite t lock with engine := .idle } }).endRequests owner
      (storeEnding .write ⟨.complete, .none, none⟩)
  else
    ({ s with
        store := { s.store.failWrite t s.draws with engine := .idle }
        draws := s.draws + 1 }).endRequests owner
      (storeEnding .write ⟨.aborted, .storeFault, none⟩)

/-- The end of a reload (R191, R192). -/
def State.endReload (owner : Port) (s : State) : State :=
  (({ s with store := s.store.installAll }).takeReload).endRequests owner
    (storeEnding .reload ⟨.complete, .none, none⟩)

/-! ### While part reset lasts (R57, R169, R184, R190)

The rules give the output lines of that time, the end of what was in progress, and the cut of a write. The registers
hold their values after reset but for those that reset's end sets (log 26). -/

/-- A bay while reset lasts: every output line deasserted (R57); its input lines have the levels they have. -/
def Bay.inReset (x : Bay) : Bay :=
  { Bay.reset with prs := x.prs, ejc := x.ejc, flt := x.flt, prk := x.prk, idx := x.idx }

/-- The bays while reset lasts. -/
def baysInReset (t : Eight Bay) : Eight Bay :=
  ⟨t.at0.inReset, t.at1.inReset, t.at2.inReset, t.at3.inReset, t.at4.inReset, t.at5.inReset, t.at6.inReset,
   t.at7.inReset⟩

/-- A port unit while reset lasts: no frame (R169), nothing queued, and no source of the notice line, whose flags and
enables are set when reset ends (R183, R184). -/
def PortUnit.inReset : PortUnit :=
  { PortUnit.reset with
    maskC := false, maskN := false, maskM := false, maskB := false
    changed := Eight.all false, motionChanged := false }

/-- The store while reset lasts: the records are kept, but for one whose write is cut, and the write engine has
nothing in flight (R190). -/
def Store.inReset (draw : Nat) (st : Store) : Store :=
  let kept :=
    match st.engine with
    | .write t lock _ _ => st.tearWrite t lock draw
    | _ => st
  { Store.reset with
    profiles := kept.profiles, caseRecord := kept.caseRecord, engine := .idle, keyRaw := st.keyRaw }

/-- RESETN asserted, or power coming on: the part while reset lasts. -/
def State.holdReset (s : State) : State :=
  { pending := s.pending
    now := 0
    draws := match s.store.engine with
      | .write _ _ _ _ => s.draws + 1
      | _ => s.draws
    bays := baysInReset s.bays
    arbiter := { Arbiter.reset with srcRaw := s.arbiter.srcRaw }
    receiver := { Receiver.reset with mrx := s.receiver.mrx }
    motion := MotionRecord.reset
    portA := PortUnit.inReset
    portB := PortUnit.inReset
    shared := Eight.all 0
    store := s.store.inReset s.draws }

/-! ### The end of part reset (R57, R98, R116, R130, R177, R183, R184, R188, R191) -/

/-- A bay as reset ends: settled and filtered levels from the raw ones, then EMPTY, SPINNING_DOWN with its
spin-down and perhaps its unload watch in flight, or FAULTED CARRIER_FAULT (R57, R74, R165). -/
def Bay.afterReset (x : Bay) : Bay :=
  let y : Bay :=
    { Bay.reset with
      prs := x.prs, ejc := x.ejc, flt := x.flt, prk := x.prk, idx := x.idx,
      present := x.prs, ejectorOpen := x.ejc, fltOn := x.flt, prkOn := x.prk }
  let quiet := some (dueAfter 0 builtInProfile.stopQuiet)
  Bay.relight ⟨0, .blind⟩ <|
    if !x.prs then y
    else if x.flt then
      { y with state := .faulted, fault := some .carrierFault, quietTimer := quiet }
    else
      { y with
        state := .spinningDown
        quietTimer := quiet
        spindownTimer := some (dueAfter 0 builtInProfile.spindownLimit)
        unloadWatch :=
          if x.prk then none else some (dueAfter 0 builtInProfile.unloadTime) }

/-- The bays as reset ends. -/
def baysAfterReset (t : Eight Bay) : Eight Bay :=
  ⟨t.at0.afterReset, t.at1.afterReset, t.at2.afterReset, t.at3.afterReset, t.at4.afterReset,
   t.at5.afterReset, t.at6.afterReset, t.at7.afterReset⟩

/-- The store as reset ends: the key position is sampled and the start-up load begins (R188, R191). -/
def Store.afterReset (st : Store) : Store := { st with engine := .startup, keyService := st.keyRaw }

/-- RESETN released: the settled levels are sampled, every bay's sequencer starts, the ports' changed flags and
enables are set, and the start-up load begins. The clock starts at 0. -/
def State.endReset (s : State) : State :=
  { s with
    now := 0
    bays := baysAfterReset s.bays
    arbiter :=
      { s.arbiter with
        battery := s.arbiter.srcRaw
        limit := builtInCase.limitFor s.arbiter.srcRaw }
    portA := PortUnit.reset
    portB := PortUnit.reset
    store := s.store.afterReset }

/-- Part reset, taken as one event: it is asserted, and it ends. The raw line levels are those the lines have
(log 26). -/
def State.partReset (s : State) : State := s.holdReset.endReset

end Sys2Proof.Machine
end

