-- ==== Sys2Proof/Machine/LineEvents.lean ====
section
/-!
DEFINITION. The input lines and their filters (R48, R77, R103, R154, R188), one meaning each. An expiry that
finds the raw level at the settled level again changes no level.
-/

namespace Sys2Proof.Machine

/-- A raw PRS change (R154). -/
def execPrsLineChange (dt : Micros) (b : BayNo) (level : Bool) (s : State) :
    Host.Outcome State Fault Refusal :=
  let s := s.advance dt
  let x := s.bay b
  .next <| s.setBay b
    { x with prs := level, prsTimer := filterTimer s.now lineSettle x.prs level x.present x.prsTimer }

/-- The presence settle timer expires (R154, R155, R156). -/
def execPrsSettleExpiry (b : BayNo) (s : State) : Host.Outcome State Fault Refusal :=
  .next <| s.bayExpiry b Bay.prsTimer fun c w =>
    if w.bay.prs = w.bay.present then w.edit fun x => { x with prsTimer := none }
    else w.presenceSettled w.bay.prs c

/-- A raw EJC change (R154). -/
def execEjcLineChange (dt : Micros) (b : BayNo) (level : Bool) (s : State) :
    Host.Outcome State Fault Refusal :=
  let s := s.advance dt
  let x := s.bay b
  .next <| s.setBay b
    { x with ejc := level, ejcTimer := filterTimer s.now lineSettle x.ejc level x.ejectorOpen x.ejcTimer }

/-- The ejector settle timer expires (R154, R157, R158). -/
def execEjcSettleExpiry (b : BayNo) (s : State) : Host.Outcome State Fault Refusal :=
  .next <| s.bayExpiry b Bay.ejcTimer fun c w =>
    if w.bay.ejc = w.bay.ejectorOpen then w.edit fun x => { x with ejcTimer := none }
    else w.ejectorSettled w.bay.ejc c

/-- A raw FLT change (R48). -/
def execFltLineChange (dt : Micros) (b : BayNo) (level : Bool) (s : State) :
    Host.Outcome State Fault Refusal :=
  let s := s.advance dt
  let x := s.bay b
  .next <| s.setBay b
    { x with flt := level, fltTimer := filterTimer s.now fltFilter x.flt level x.fltOn x.fltTimer }

/-- The FLT filter expires (R48, R49). -/
def execFltFilterExpiry (b : BayNo) (s : State) : Host.Outcome State Fault Refusal :=
  .next <| s.bayExpiry b Bay.fltTimer fun c w =>
    if w.bay.flt = w.bay.fltOn then w.edit fun x => { x with fltTimer := none }
    else w.fltFiltered w.bay.flt c

/-- A raw PRK change (R77). -/
def execPrkLineChange (dt : Micros) (b : BayNo) (level : Bool) (s : State) :
    Host.Outcome State Fault Refusal :=
  let s := s.advance dt
  let x := s.bay b
  .next <| s.setBay b
    { x with prk := level, prkTimer := filterTimer s.now prkFilter x.prk level x.prkOn x.prkTimer }

/-- The PRK filter expires (R77). -/
def execPrkFilterExpiry (b : BayNo) (s : State) : Host.Outcome State Fault Refusal :=
  .next <| s.bayExpiry b Bay.prkTimer fun c w =>
    if w.bay.prk = w.bay.prkOn then w.edit fun x => { x with prkTimer := none }
    else w.prkFiltered w.bay.prk c

/-- A raw SRC change (R103). -/
def execSrcLineChange (dt : Micros) (level : Bool) (s : State) : Host.Outcome State Fault Refusal :=
  let s := s.advance dt
  let a := s.arbiter
  .next
    { s with
      arbiter :=
        { a with
          srcRaw := level
          srcTimer := filterTimer s.now caseSettle a.srcRaw level a.battery a.srcTimer } }

/-- The supply source changes (R103, R104). Until the start-up load has completed no working copy is read (R191):
the limit then waits for it. -/
def execSrcSettleExpiry (s : State) : Host.Outcome State Fault Refusal :=
  match s.arbiter.srcTimer with
  | none => .next s
  | some due =>
    let s := s.advanceTo due
    let a : Arbiter := { s.arbiter with srcTimer := none }
    if a.srcRaw = a.battery then .next { s with arbiter := a }
    else
      .next
        { s with
          arbiter :=
            { a with
              battery := a.srcRaw
              limit := if s.starting then a.limit else s.caseSettings.limitFor a.srcRaw
              evalOwed := true } }

/-- A raw KEY change (R188). -/
def execKeyLineChange (dt : Micros) (level : Bool) (s : State) : Host.Outcome State Fault Refusal :=
  let s := s.advance dt
  let k := s.store
  .next
    { s with
      store :=
        { k with
          keyRaw := level
          keyTimer := filterTimer s.now caseSettle k.keyRaw level k.keyService k.keyTimer } }

/-- The settled key position changes (R188). -/
def execKeySettleExpiry (s : State) : Host.Outcome State Fault Refusal :=
  match s.store.keyTimer with
  | none => .next s
  | some due =>
    let s := s.advanceTo due
    .next { s with store := { s.store with keyTimer := none, keyService := s.store.keyRaw } }

end Sys2Proof.Machine
end

