-- ==== Sys2Proof/Machine/MotionEvents.lean ====
section
/-!
DEFINITION. The motion sensor's events (R117, R118, R127), one meaning each. Before the receiver starts MRX is
not sampled (R116).
-/

namespace Sys2Proof.Machine

/-- The samples that finish a character, and the character (R117, R118). -/
def execCharacterFinished (dt : Micros) (line : List Bool) (s : State) : Host.Outcome State Fault Refusal :=
  let s := s.advance dt
  .next (if s.starting then s else s.sampleLine line)

/-- The silence timer expires (R127). -/
def execSilenceTimerExpiry (s : State) : Host.Outcome State Fault Refusal :=
  match s.receiver.silenceTimer with
  | none => .next s
  | some due => .next ((s.advanceTo due).silence).finish

/-- The samples of a dip of the line, whose start bit decides 1: the receiver returns from inside a character to HUNT
with no other effect (R117). -/
def execMrxFalseStart (dip : Sampling) (s : State) : Host.Outcome State Fault Refusal :=
  let s := s.advance dip.dt
  .next (if s.starting then s else s.sampleLine dip.line)

end Sys2Proof.Machine
end

