-- ==== Sys2Proof/Machine/PortCommands.lean ====
section
/-!
DEFINITION. The immediate commands (R172), one meaning each. A command is taken whole (R167): its effect, then
its answer. While the part is starting, each is answered STARTING (R170).
-/

namespace Sys2Proof.Machine

/-- SET DEMAND (R6). -/
def execSetDemand (dt : Micros) (p : Port) (mask level : Byte) (s : State) :
    Host.Outcome State Fault Refusal :=
  .next <| (s.advance dt).takeCommand p fun s =>
    ((s.event.onBays (maskBays mask) (Work.writeDemand p (levelOf level))).finish).reply p 2 .accepted

/-- READ BAY (R1, R172, R173). -/
def execReadBay (dt : Micros) (p : Port) (bay : Byte) (s : State) : Host.Outcome State Fault Refusal :=
  .next <| (s.advance dt).takeCommand p fun s =>
    match bayOf bay with
    | none => s.reply p 1 .badParameter
    | some b => s.answer p 1 .accepted (s.bayBytes b) (.bayFlag b)

/-- READ CASE (R115, R129, R153, R173). -/
def execReadCase (dt : Micros) (p : Port) (s : State) : Host.Outcome State Fault Refusal :=
  .next <| (s.advance dt).takeCommand p fun s => s.answer p 0 .accepted s.caseBytes .motionFlag

/-- SENSE LINES (R172): `idx` and `mrx` are sampled at the pins as the command is taken (log 5). -/
def execSenseLines (dt : Micros) (p : Port) (bay : Byte) (idx mrx : Bool) (s : State) :
    Host.Outcome State Fault Refusal :=
  .next <| (s.advance dt).takeCommand p fun s =>
    match bayOf bay with
    | none => s.reply p 1 .badParameter
    | some b =>
      let s := (s.setBay b { s.bay b with idx := idx }).editReceiver fun r => { r with mrx := mrx }
      s.answer p 1 .accepted (s.lineBytes b) .nothing

/-- TAKE COMPLETION (R173, R178). -/
def execTakeCompletion (dt : Micros) (p : Port) (s : State) : Host.Outcome State Fault Refusal :=
  .next <| (s.advance dt).takeCommand p fun s =>
    match (s.port p).completions.head? with
    | none => s.answer p 0 .accepted emptyCompletion .nothing
    | some r => s.answer p 0 .accepted r.bytes .headRecord

/-- CANCEL (R181). -/
def execCancel (dt : Micros) (p : Port) (tag : Byte) (s : State) : Host.Outcome State Fault Refusal :=
  .next <| (s.advance dt).takeCommand p fun s =>
    if (s.port p).tagInUse tag then
      (s.endTagged p tag ⟨.cancelled, .none, none⟩).reply p 1 .accepted
    else s.reply p 1 .noSuchTag

/-- CLEAR FAULT (R53). -/
def execClearFault (dt : Micros) (p : Port) (bay : Byte) (s : State) : Host.Outcome State Fault Refusal :=
  .next <| (s.advance dt).takeCommand p fun s =>
    match bayOf bay with
    | none => s.reply p 1 .badParameter
    | some b =>
      if (s.bay b).state ≠ .faulted then s.reply p 1 .notFaulted
      else if (s.bay b).fltOn then s.reply p 1 .faultActive
      else (s.bayEvent b Work.faultCleared).reply p 1 .accepted

/-- RING PEER (R182). -/
def execRingPeer (dt : Micros) (p : Port) (bits : Half) (s : State) : Host.Outcome State Fault Refusal :=
  .next <| (s.advance dt).takeCommand p fun s =>
    (s.setPort p.peer ((s.port p.peer).ring bits)).reply p 2 .accepted

/-- TAKE NOTICES (R173, R182). -/
def execTakeNotices (dt : Micros) (p : Port) (s : State) : Host.Outcome State Fault Refusal :=
  .next <| (s.advance dt).takeCommand p fun s =>
    s.answer p 0 .accepted (halfBytes (s.port p).notice) (.noticeBits (s.port p).notice)

/-- SET NOTICE MASK (R184). -/
def execSetNoticeMask (dt : Micros) (p : Port) (mask : Byte) (s : State) :
    Host.Outcome State Fault Refusal :=
  .next <| (s.advance dt).takeCommand p fun s =>
    (s.setPort p ((s.port p).setMask mask)).reply p 1 .accepted

/-- READ SHARED (R174). -/
def execReadShared (dt : Micros) (p : Port) (index : Byte) (s : State) :
    Host.Outcome State Fault Refusal :=
  .next <| (s.advance dt).takeCommand p fun s =>
    match sharedOf index with
    | none => s.reply p 1 .badParameter
    | some i => s.answer p 1 .accepted (halfBytes (s.shared.get i)) .nothing

/-- WRITE SHARED (R174). -/
def execWriteShared (dt : Micros) (p : Port) (index : Byte) (value : Half) (s : State) :
    Host.Outcome State Fault Refusal :=
  .next <| (s.advance dt).takeCommand p fun s =>
    match sharedOf index with
    | none => s.reply p 3 .badParameter
    | some i => ({ s with shared := s.shared.set i value }).reply p 3 .accepted

/-- READ PROFILE (R172, R193). -/
def execReadProfile (dt : Micros) (p : Port) (index : Byte) (s : State) :
    Host.Outcome State Fault Refusal :=
  .next <| (s.advance dt).takeCommand p fun s =>
    match profileOf index with
    | none => s.reply p 1 .badParameter
    | some i => s.answer p 1 .accepted (s.store.profileBytes i) .nothing

/-- READ STORED (R172, R193). -/
def execReadStored (dt : Micros) (p : Port) (record : Byte) (s : State) :
    Host.Outcome State Fault Refusal :=
  .next <| (s.advance dt).takeCommand p fun s =>
    match recordOf record with
    | none => s.reply p 1 .badParameter
    | some r =>
      if s.storeBusy then s.reply p 1 .storeBusy
      else s.answer p 1 .accepted (s.store.storedBytes r) .nothing

/-- PORT RESTART (R17, R185). -/
def execPortRestart (dt : Micros) (p : Port) (s : State) : Host.Outcome State Fault Refusal :=
  .next <| (s.advance dt).takeCommand p fun s =>
    ((((s.setPort p (s.port p).restart).event).onBays bayNos (Work.restartFlag p)).finish).reply p 0 .accepted

end Sys2Proof.Machine
end

