-- ==== Sys2Proof/Machine/RequestCommands.lean ====
section
/-!
DEFINITION. The requests (R175, R177) and the ends that time brings them, one meaning each.
-/

namespace Sys2Proof.Machine

/-- The first failing check of a request frame after its parameter's range: SLOTS_FULL, then TAG_IN_USE
(R177). -/
def PortUnit.refusesRequest (u : PortUnit) (tag : Byte) : Option AnswerCode :=
  if u.slotsFull then some .slotsFull
  else if u.tagInUse tag then some .tagInUse
  else none

/-- WAIT BAY (R177, R179, R180). -/
def execWaitBay (dt : Micros) (p : Port) (tag bay level : Byte) (timeout : Half) (s : State) :
    Host.Outcome State Fault Refusal :=
  .next <| (s.advance dt).takeCommand p fun s =>
    match bayOf bay with
    | none => s.reply p 5 .badParameter
    | some b =>
      match (s.port p).refusesRequest tag with
      | some code => s.reply p 5 code
      | none =>
        let s' := s.accept p tag (.wait b (levelOf level)) (timeoutDue s.now timeout)
        (s'.endAccepted p tag
          (s'.orExpireAtOnce b timeout (s'.waitAtAcceptance b (levelOf level)))).reply p 5 .accepted

/-- RELEASE BAY (R7, R162, R177). -/
def execReleaseBay (dt : Micros) (p : Port) (tag bay : Byte) (timeout : Half) (s : State) :
    Host.Outcome State Fault Refusal :=
  .next <| (s.advance dt).takeCommand p fun s =>
    match bayOf bay with
    | none => s.reply p 4 .badParameter
    | some b =>
      match (s.port p).refusesRequest tag with
      | some code => s.reply p 4 code
      | none =>
        let s' := (s.accept p tag (.release b) (timeoutDue s.now timeout)).bayEvent b (Work.askRelease p)
        (s'.endAccepted p tag
          (s'.orExpireAtOnce b timeout (s'.releaseAtAcceptance b))).reply p 4 .accepted

/-- WRITE RECORD (R175, R177, R188, R189). A frame that ends inside its contents is not taken (R169,
log 23). -/
def execWriteRecord (dt : Micros) (p : Port) (tag record lock : Byte) (contents : List Byte) (s : State) :
    Host.Outcome State Fault Refusal :=
  .next <| (s.advance dt).takeCommand p fun s =>
    match recordOf record with
    | none => s.reply p 2 .badParameter
    | some r =>
      if contents.length < r.contentBytes then s
      else
        let n := 3 + r.contentBytes
        match (s.port p).refusesRequest tag with
        | some code => s.reply p n code
        | none =>
          if s.storeBusy then s.reply p n .storeBusy
          else if s.store.refusesWrite r then s.reply p n .locked
          else
            let s' := s.accept p tag .write none
            ({ s' with
                store := s'.store.startWrite (writeTarget r contents) (lock ≠ 0) p
                  (dueAfter s.now writeTime) }).reply p n .accepted

/-- RELOAD (R177, R188, R191). -/
def execReload (dt : Micros) (p : Port) (tag : Byte) (s : State) : Host.Outcome State Fault Refusal :=
  .next <| (s.advance dt).takeCommand p fun s =>
    match (s.port p).refusesRequest tag with
    | some code => s.reply p 1 code
    | none =>
      if s.storeBusy then s.reply p 1 .storeBusy
      else
        let s' := s.accept p tag .reload none
        ({ s' with
            store := { s'.store with engine := .reload p (dueAfter s.now reloadTime) } }).reply p 1 .accepted

/-- The timeout of an outstanding WAIT BAY (R180). -/
def execWaitBayTimeout (p : Port) (tag : Byte) (s : State) : Host.Outcome State Fault Refusal :=
  match (s.port p).findTag tag with
  | none => .next s
  | some r =>
    match r.kind with
    | .wait b _ => .next (s.requestExpiry p r b)
    | _ => .next s

/-- The timeout of an outstanding RELEASE BAY (R163). -/
def execReleaseBayTimeout (p : Port) (tag : Byte) (s : State) : Host.Outcome State Fault Refusal :=
  match (s.port p).findTag tag with
  | none => .next s
  | some r =>
    match r.kind with
    | .release b => .next (s.requestExpiry p r b)
    | _ => .next s

end Sys2Proof.Machine
end

