-- ==== Sys2Proof/Machine/ResetEvents.lean ====
section
/-!
DEFINITION. Part reset, the start-up load, and the ends of store operations, one meaning each.
-/

namespace Sys2Proof.Machine

/-- Power-on, or RESETN asserted and released: reset lasts, then ends (R57, R184, R190). -/
def execPartReset (s : State) : Host.Outcome State Fault Refusal := .next s.partReset

/-- The start-up load completes, at a moment from the end of reset to 5 ms after it (R191, log 20). -/
def execStartupLoadComplete (dt : Micros) (s : State) : Host.Outcome State Fault Refusal :=
  .next <|
    if s.starting then (s.advanceWithin dt (dueAfter 0 startupTime)).completeStartup else s.advance dt

/-- The end of a write (R189, R190). -/
def execWriteEnd (agrees : Bool) (s : State) : Host.Outcome State Fault Refusal :=
  match s.store.engine with
  | .write t lock owner due => .next ((s.advanceTo due).endWrite t lock owner agrees)
  | _ => .next s

/-- The end of a reload (R191, R192). -/
def execReloadEnd (s : State) : Host.Outcome State Fault Refusal :=
  match s.store.engine with
  | .reload owner due => .next ((s.advanceTo due).endReload owner)
  | _ => .next s

end Sys2Proof.Machine
end

