-- ==== Sys2Proof/Machine/Monitor.lean ====
section
/-!
DEFINITION. A bay's speed monitor: index pulses, absences, quiet, and the events they produce
(03_spindle_speed_measurement.md).
-/

namespace Sys2Proof.Machine

/-- The time from a reference stamp to a stamp on the wrapping counter (R60, R62). -/
def stampSince (stamp reference : Nat) : Nat := (stamp + 16777216 - reference) % 16777216

/-- The glitch threshold (R60). -/
def Profile.glitch (p : Profile) : Nat := p.pNom / 4

/-- The band test: |P − P_NOM| × 256 ≤ P_NOM × TOL (R63). -/
def Profile.inBand (p : Profile) (period : Nat) : Bool :=
  ((period - p.pNom) + (p.pNom - period)) * 256 ≤ p.pNom * p.tol

/-- An in-band period counts (R64). -/
def Bay.countIn (x : Bay) : Bay := { x with inRun := min 64 (x.inRun + 1), outRun := 0 }

/-- An out-of-band period or an absence counts (R64). -/
def Bay.countOut (x : Bay) : Bay := { x with outRun := min 16 (x.outRun + 1), inRun := 0 }

/-- The states in which the speed-lost event is produced (R67, R69). -/
def BayState.judgesLoss : BayState → Bool
  | .spun | .loading | .ready | .unloading => true
  | _ => false

/-- The speed-lost event is due after an out-of-band count (R69). -/
def Bay.lossDue (x : Bay) : Bool := x.state.judgesLoss && x.timing.lossRevs ≤ x.outRun

/-- The at-speed event is due when an in-band period brings the run, before it `before`, to
ATSPEED_REVS (R68). -/
def Bay.atSpeedDue (x : Bay) (before : Nat) : Bool :=
  (x.state = .spinningUp) && (before + 1 = x.timing.atSpeedRevs)

/-- The monitor's own share of an accepted pulse: the new reference, the absence and quiet timers, and
the rest mark (R60, R28). -/
def Bay.takePulse (c : Ctx) (x : Bay) : Bay :=
  { x with
    reference := some (stampOf c.now)
    absenceTimer := if x.spin then some (c.now + 2 * x.timing.pNom) else x.absenceTimer
    quietTimer := some (dueAfter c.now x.timing.stopQuiet)
    quietElapsed := false
    restMark := false }

/-- An accepted pulse at a measured time after the reference (R60, R62, R64, R67). -/
def Work.periodMeasured (c : Ctx) (difference : Nat) (w : Work) : Work :=
  let period := min 65535 difference
  let before := w.bay.inRun
  let w := w.edit fun x => ({ x with lastPeriod := some period }).takePulse c
  if w.bay.spin then
    if w.bay.timing.inBand period then
      let w := w.edit Bay.countIn
      if w.bay.atSpeedDue before then w.atSpeed c else w
    else
      let w := w.edit Bay.countOut
      if w.bay.lossDue then w.speedLost c else w
  else w

/-- An IDX assertion (R58, R60): ignored in EMPTY, a glitch below the threshold, accepted otherwise. -/
def Work.pulse (c : Ctx) (w : Work) : Work :=
  let w := w.edit fun x => { x with idx := true }
  if w.bay.state = .empty then w
  else
    match w.bay.reference with
    | none => w.edit (Bay.takePulse c)
    | some r =>
      let difference := stampSince (stampOf c.now) r
      if difference < w.bay.timing.glitch then w else w.periodMeasured c difference

/-- An absence is counted (R65). -/
def Work.absence (c : Ctx) (w : Work) : Work :=
  let w := w.edit fun x =>
    { x.countOut with
      reference := none
      lastPeriod := none
      absenceTimer := some (c.now + 2 * x.timing.pNom) }
  if w.bay.lossDue then w.speedLost c else w

/-- The states that produce the stopped event when SPIN is deasserted (R67, R72). -/
def BayState.judgesStop : BayState → Bool
  | .spinningDown | .faulted => true
  | _ => false

/-- Quiet elapses (R71, R72). -/
def Work.quietRanOut (c : Ctx) (w : Work) : Work :=
  let w := w.edit fun x =>
    { x with quietTimer := none, quietElapsed := true, reference := none, lastPeriod := none }
  if !w.bay.spin && w.bay.state.judgesStop then w.stopped c else w

end Sys2Proof.Machine
end

