-- ==== Sys2Proof/Machine/SpindleEvents.lean ====
section
/-!
DEFINITION. The speed monitor's events and the spindle timers, one meaning each. A spindle timer belongs to the
state its operation runs in (R25).
-/

namespace Sys2Proof.Machine

/-- An IDX assertion (R58, R60). -/
def execIdxPulse (dt : Micros) (b : BayNo) (s : State) : Host.Outcome State Fault Refusal :=
  .next ((s.advance dt).bayEvent b Work.pulse)

/-- The absence timer expires (R65). -/
def execAbsenceTimerExpiry (b : BayNo) (s : State) : Host.Outcome State Fault Refusal :=
  .next (s.bayExpiry b Bay.absenceTimer Work.absence)

/-- The quiet timer expires (R71, R72). -/
def execQuietTimerExpiry (b : BayNo) (s : State) : Host.Outcome State Fault Refusal :=
  .next (s.bayExpiry b Bay.quietTimer Work.quietRanOut)

/-- SPINUP_LIMIT expires in SPINNING_UP (R36). -/
def execSpinupLimitExpiry (b : BayNo) (s : State) : Host.Outcome State Fault Refusal :=
  .next <| s.bayExpiry b Bay.spinupTimer fun c => Work.inState .spinningUp (Work.spinupTimedOut c)

/-- SPINDOWN_LIMIT expires in SPINNING_DOWN (R44, R55). -/
def execSpindownLimitExpiry (b : BayNo) (s : State) : Host.Outcome State Fault Refusal :=
  .next <| s.bayExpiry b Bay.spindownTimer fun c => Work.inState .spinningDown (Work.spindownTimedOut c)

/-- The unload watch expires with PRK deasserted (R55). -/
def execUnloadWatchExpiry (b : BayNo) (s : State) : Host.Outcome State Fault Refusal :=
  .next <| s.bayExpiry b Bay.unloadWatch fun c =>
    Work.inState .spinningDown (Work.toFaulted c .headsStuck true)

/-- The dwell timer expires in SPUN (R40). -/
def execDwellTimerExpiry (b : BayNo) (s : State) : Host.Outcome State Fault Refusal :=
  .next <| s.bayExpiry b Bay.dwellTimer fun c => Work.inState .spun (Work.dwellRanOut c)

end Sys2Proof.Machine
end

