-- ==== Sys2Proof/Machine/Dispatch.lean ====
section
/-!
DEFINITION. Each row of the opcode table and its meaning: one arm per constructor of Instr.
-/

namespace Sys2Proof.Machine

def exec (i : Instr) (s : State) : Host.Outcome State Fault Refusal :=
  match i with
  | .setDemand dt port mask level => Sys2Proof.Machine.execSetDemand dt port mask level s
  | .readBay dt port bay => Sys2Proof.Machine.execReadBay dt port bay s
  | .readCase dt port => Sys2Proof.Machine.execReadCase dt port s
  | .senseLines dt port bay idx mrx => Sys2Proof.Machine.execSenseLines dt port bay idx mrx s
  | .takeCompletion dt port => Sys2Proof.Machine.execTakeCompletion dt port s
  | .cancel dt port tag => Sys2Proof.Machine.execCancel dt port tag s
  | .clearFault dt port bay => Sys2Proof.Machine.execClearFault dt port bay s
  | .ringPeer dt port bits => Sys2Proof.Machine.execRingPeer dt port bits s
  | .takeNotices dt port => Sys2Proof.Machine.execTakeNotices dt port s
  | .setNoticeMask dt port mask => Sys2Proof.Machine.execSetNoticeMask dt port mask s
  | .readShared dt port index => Sys2Proof.Machine.execReadShared dt port index s
  | .writeShared dt port index value => Sys2Proof.Machine.execWriteShared dt port index value s
  | .readProfile dt port index => Sys2Proof.Machine.execReadProfile dt port index s
  | .readStored dt port record => Sys2Proof.Machine.execReadStored dt port record s
  | .portRestart dt port => Sys2Proof.Machine.execPortRestart dt port s
  | .waitBay dt port tag bay level timeout => Sys2Proof.Machine.execWaitBay dt port tag bay level timeout s
  | .releaseBay dt port tag bay timeout => Sys2Proof.Machine.execReleaseBay dt port tag bay timeout s
  | .writeRecord dt port tag record lock contents => Sys2Proof.Machine.execWriteRecord dt port tag record lock contents s
  | .reload dt port tag => Sys2Proof.Machine.execReload dt port tag s
  | .unknownCommand dt port => Sys2Proof.Machine.execUnknownCommand dt port s
  | .startingFrame dt port => Sys2Proof.Machine.execStartingFrame dt port s
  | .selectFall dt port => Sys2Proof.Machine.execSelectFall dt port s
  | .frameEnd dt port bytes => Sys2Proof.Machine.execFrameEnd dt port bytes s
  | .partReset => Sys2Proof.Machine.execPartReset s
  | .startupLoadComplete dt => Sys2Proof.Machine.execStartupLoadComplete dt s
  | .prsLineChange dt bay asserted => Sys2Proof.Machine.execPrsLineChange dt bay asserted s
  | .prsSettleExpiry bay => Sys2Proof.Machine.execPrsSettleExpiry bay s
  | .ejcLineChange dt bay asserted => Sys2Proof.Machine.execEjcLineChange dt bay asserted s
  | .ejcSettleExpiry bay => Sys2Proof.Machine.execEjcSettleExpiry bay s
  | .fltLineChange dt bay asserted => Sys2Proof.Machine.execFltLineChange dt bay asserted s
  | .fltFilterExpiry bay => Sys2Proof.Machine.execFltFilterExpiry bay s
  | .prkLineChange dt bay asserted => Sys2Proof.Machine.execPrkLineChange dt bay asserted s
  | .prkFilterExpiry bay => Sys2Proof.Machine.execPrkFilterExpiry bay s
  | .srcLineChange dt asserted => Sys2Proof.Machine.execSrcLineChange dt asserted s
  | .srcSettleExpiry => Sys2Proof.Machine.execSrcSettleExpiry s
  | .keyLineChange dt asserted => Sys2Proof.Machine.execKeyLineChange dt asserted s
  | .keySettleExpiry => Sys2Proof.Machine.execKeySettleExpiry s
  | .idxPulse dt bay => Sys2Proof.Machine.execIdxPulse dt bay s
  | .absenceTimerExpiry bay => Sys2Proof.Machine.execAbsenceTimerExpiry bay s
  | .quietTimerExpiry bay => Sys2Proof.Machine.execQuietTimerExpiry bay s
  | .spinupLimitExpiry bay => Sys2Proof.Machine.execSpinupLimitExpiry bay s
  | .spindownLimitExpiry bay => Sys2Proof.Machine.execSpindownLimitExpiry bay s
  | .unloadWatchExpiry bay => Sys2Proof.Machine.execUnloadWatchExpiry bay s
  | .dwellTimerExpiry bay => Sys2Proof.Machine.execDwellTimerExpiry bay s
  | .loadTimerExpiry bay => Sys2Proof.Machine.execLoadTimerExpiry bay s
  | .settleTimerExpiry bay => Sys2Proof.Machine.execSettleTimerExpiry bay s
  | .withdrawWatchExpiry bay => Sys2Proof.Machine.execWithdrawWatchExpiry bay s
  | .unloadTimerExpiry bay => Sys2Proof.Machine.execUnloadTimerExpiry bay s
  | .pulseTimerExpiry bay => Sys2Proof.Machine.execPulseTimerExpiry bay s
  | .retractTimerExpiry bay => Sys2Proof.Machine.execRetractTimerExpiry bay s
  | .gapTimerExpiry => Sys2Proof.Machine.execGapTimerExpiry s
  | .grantEvaluation dt => Sys2Proof.Machine.execGrantEvaluation dt s
  | .ledPatternToggle bay => Sys2Proof.Machine.execLedPatternToggle bay s
  | .characterFinished dt line => Sys2Proof.Machine.execCharacterFinished dt line s
  | .silenceTimerExpiry => Sys2Proof.Machine.execSilenceTimerExpiry s
  | .waitBayTimeout port tag => Sys2Proof.Machine.execWaitBayTimeout port tag s
  | .releaseBayTimeout port tag => Sys2Proof.Machine.execReleaseBayTimeout port tag s
  | .writeEnd agrees => Sys2Proof.Machine.execWriteEnd agrees s
  | .reloadEnd => Sys2Proof.Machine.execReloadEnd s
  | .mrxFalseStart dip => Sys2Proof.Machine.execMrxFalseStart dip s

end Sys2Proof.Machine
end

