-- ==== Sys2Proof/Safety.lean ====
section
/-!
DEFINITION. The terms claims are stated in: the conditions the rules promise of every state, what a history of
the part is (log 2), and the frames, which say what an event leaves as it was.
-/

namespace Sys2Proof.Machine

/-! ### Conditions on one bay -/

/-- A set release flag goes with that port's demand at STOP (R12). -/
def Bay.flagsFollowDemands (x : Bay) : Bool :=
  (!x.flagA || x.demandA = .stop) && (!x.flagB || x.demandB = .stop)

/-- The fault kind is present exactly in FAULTED, the retract cause exactly in RETRACTING (R19). -/
def Bay.detailsFollowState (x : Bay) : Bool :=
  (x.fault.isSome == (x.state = .faulted)) && (x.cause.isSome == (x.state = .retracting))

/-- The output lines are those of the state and phase (R26, R76); SPIN is asserted in FAULTED for
HEADS_STUCK alone (R51), and in RETRACTING for every cause but CLEAR (R76). -/
def Bay.linesFollowState (x : Bay) : Bool :=
  match x.state with
  | .empty | .idle | .queued | .spinningDown | .released => !x.spin && !x.hld && !x.rtr
  | .spinningUp | .spun | .unloading => x.spin && !x.hld && !x.rtr
  | .loading => x.spin && (x.hld == (x.phase ≠ some .withdraw)) && !x.rtr
  | .ready => x.spin && x.hld && !x.rtr
  | .retracting =>
    (x.spin || x.cause = some .clear) && x.cause ≠ none && !x.hld && (x.rtr == x.pulseTimer.isSome)
  | .faulted => (!x.spin || x.fault = some .headsStuck) && !x.hld && !x.rtr

/-- The LED pattern is the first of R165 whose condition holds, and the LED line follows it: OFF and ON are steady,
SLOW and FAST have their half-period running. -/
def Bay.ledFollowsState (x : Bay) : Bool :=
  (x.ledPattern =
    match x.state with
    | .faulted => .fast
    | .released => .on
    | .queued | .spinningUp | .spun | .loading | .ready | .unloading | .retracting | .spinningDown =>
      if x.ejectorOpen || x.flagA || x.flagB then .slow else .off
    | .empty | .idle => .off) &&
  match x.ledPattern with
  | .off => !x.led && x.ledTimer.isNone
  | .on => x.led && x.ledTimer.isNone
  | .slow | .fast => x.ledTimer.isSome

/-- The head timer that a bay state and phase keep in flight (R75). -/
def Bay.headTimerDue (x : Bay) : Option HeadTimer :=
  match x.state, x.phase with
  | .loading, some .seek => some .load
  | .loading, some .settle => some .settle
  | .loading, some .withdraw => some .withdraw
  | .unloading, _ => some .unload
  | .retracting, _ => some .retract
  | _, _ => none

/-- Every operation in flight has its timer, and no timer outlives its state (R25, R75). -/
def Bay.timersFollowState (x : Bay) : Bool :=
  (x.spinupTimer.isSome == (x.state = .spinningUp)) &&
  ((x.spindownTimer.isSome || x.spindownHeld) == (x.state = .spinningDown)) &&
  (!x.spindownHeld || x.unloadWatch.isSome) &&
  (!x.unloadWatch.isSome || x.state = .spinningDown) &&
  (!x.dwellTimer.isSome || x.state = .spun) &&
  (x.phase.isSome == (x.state = .loading)) &&
  (x.headTimer.map Prod.fst = x.headTimerDue) &&
  (!x.pulseTimer.isSome || x.state = .retracting)

/-- The speed monitor's counts and timers (R64, R65, R71) and tries used (R18). -/
def Bay.monitorHolds (x : Bay) : Bool :=
  (x.inRun ≤ 64) && (x.outRun ≤ 16) && (x.inRun = 0 || x.outRun = 0) && (x.tries ≤ 4) &&
  (x.absenceTimer.isSome == x.spin) &&
  (if x.state = .empty then !x.spin && !x.quietTimer.isSome && !x.quietElapsed
   else x.quietTimer.isSome == !x.quietElapsed) &&
  (!x.restMark || (x.quietElapsed && !x.spin))

/-- What the demands, the ejector, the filtered levels and the motion state allow of the bay's state: present
outside EMPTY (R2), demands at STOP in EMPTY (R16) and RELEASED (R159), FLT deasserted wherever its asserting
acts (R49, but for a carrier inserted or released with FLT asserted), SPUN with the heads parked (R42), IDLE only
where neither the release condition nor the joining conditions hold (R31, R159), and no rise above what R31, R40,
R82, R96 and R157 allow. -/
def Bay.stateAllowed (m : Motion) (x : Bay) : Bool :=
  (x.present == (x.state ≠ .empty)) &&
  (!x.fltOn || x.state ∈ [.empty, .idle, .released, .retracting, .faulted]) &&
  match x.state with
  | .empty | .released => x.merged = .stop
  | .queued => x.merged ≠ .stop && !x.ejectorOpen
  | .spinningUp => x.merged ≠ .stop && !x.ejectorOpen && m ≠ .transit
  | .spun => x.merged ≠ .stop && !x.ejectorOpen && m ≠ .transit && x.prkOn
  | .loading | .ready => x.merged = .load && !x.ejectorOpen && (m = .quiet || m = .stirred)
  | .idle =>
    if x.merged = .stop then !x.flagA && !x.flagB && !x.ejectorOpen else x.ejectorOpen || x.fltOn
  | .unloading | .retracting | .spinningDown | .faulted => true

/-! ### Settings in range (R187) -/

/-- Every value lies between its bounds. -/
def inBounds (values : List Nat) (bounds : List (Nat × Nat)) : Bool :=
  (values.zip bounds).all fun v => v.2.1 ≤ v.1 && v.1 ≤ v.2.2

/-- The Range column of the profile table. -/
def profileBounds : List (Nat × Nat) :=
  [(4000, 20000), (1, 64), (1, 64), (1, 16), (1000, 60000), (1, 4), (1, 80), (1, 40), (50, 5000), (0, 2000),
   (50, 5000), (1, 50), (20, 2000), (0, 10000), (200, 5000), (2000, 60000)]

/-- The Range column of the case record table. -/
def caseBounds : List (Nat × Nat) :=
  [(20, 400), (10, 400), (0, 5000), (50, 3334), (0, 200), (1, 255), (1, 8), (1, 2000), (2, 3000),
   (100, 60000), (100, 60000), (5, 600), (2, 600), (100, 10000), (5, 200), (1, 64), (1, 255)]

def Profile.inRange (p : Profile) : Bool := inBounds p.fields profileBounds

def CaseSettings.inRange (c : CaseSettings) : Bool := inBounds c.fields caseBounds

/-- What a write in flight is to write lies in range. -/
def Engine.inRange : Engine → Bool
  | .write (.profile _ p) _ _ _ => p.inRange
  | .write (.caseRecord c) _ _ _ => c.inRange
  | _ => true

def Store.inRange (st : Store) : Bool :=
  st.profiles.every (fun r => r.contents.inRange) && st.caseRecord.contents.inRange &&
  st.workingProfiles.every (fun w => w.values.inRange) && st.workingCase.values.inRange &&
  st.engine.inRange

/-- A bay's snapshot, where there is one, lies in range. -/
def Bay.snapshotInRange (x : Bay) : Bool := x.snapshot.all fun sn => sn.profile.inRange

/-! ### Conditions on the whole part -/

/-- Stored records, working copies and snapshots lie in range (R187), and once the start-up load has completed the
limit in force is the working case record's for the supply source (R98, R104). -/
abbrev State.settingsInRange (s : State) : Prop :=
  s.store.inRange = true ∧ (∀ b, (s.bay b).snapshotInRange = true) ∧
    (s.store.engine ≠ .startup →
      s.arbiter.limit = if s.arbiter.battery then s.store.workingCase.values.limitBattery
        else s.store.workingCase.values.limitInlet)

/-- No bay stands twice in the queue, and a bay is in the queue exactly when its state is QUEUED (R99). -/
abbrev State.queueMatches (s : State) : Prop :=
  s.arbiter.queue.Nodup ∧ ∀ b, b ∈ s.arbiter.queue ↔ (s.bay b).state = .queued

/-- At most eight slots in use, and no two outstanding requests of one tag (R177). -/
abbrev PortUnit.slotsHold (u : PortUnit) : Prop :=
  u.slotsUsed ≤ 8 ∧ (u.outstanding.map Request.tag).Nodup

abbrev State.slotsHold (s : State) : Prop := s.portA.slotsHold ∧ s.portB.slotsHold

/-- The states that meet a level of WAIT BAY (R179). -/
def waitStates : Demand → List BayState
  | .stop => [.idle, .released, .empty]
  | .spin => [.spun]
  | .load => [.ready]

/-- An outstanding RELEASE BAY has its flag set, and its bay is in none of the states that end it (R163). The bay of
an outstanding WAIT BAY does not meet its level and, for SPIN and LOAD, is neither FAULTED nor EMPTY and has its
ejector closed (R179, R180). -/
def State.requestStands (s : State) (p : Port) (r : Request) : Bool :=
  match r.kind with
  | .release b => (s.bay b).flag p && (s.bay b).state ∉ [.empty, .faulted, .released]
  | .wait b level =>
    (s.bay b).state ∉ waitStates level &&
      (level = .stop || (s.bay b).state ∉ [.faulted, .empty] && !(s.bay b).ejectorOpen)
  | .write | .reload => true

/-- Outstanding requests for a bay stand; RELEASED rests on the release condition (R13, R159 to R163); a set flag
goes with STOP (R12), and outside RELEASED with an outstanding RELEASE BAY of its port (R11). -/
abbrev State.releasesHold (s : State) : Prop :=
  (∀ p ∈ [Port.a, .b], ∀ r ∈ (s.port p).outstanding, s.requestStands p r = true) ∧
  (∀ b, (s.bay b).state = .released → (s.bay b).releaseCondition = true) ∧
  (∀ b, (s.bay b).flagsFollowDemands = true) ∧
  (∀ p ∈ [Port.a, .b], ∀ b, (s.bay b).flag p = true →
    (s.bay b).state = .released ∨ ∃ r ∈ (s.port p).outstanding, r.kind = .release b)

/-- The motion record's bounds (R130, R132, R133, R135). -/
def MotionRecord.inBounds (m : MotionRecord) : Bool :=
  (m.vib ≤ 53344) && m.lastE.all (fun e => e ≤ 3584) && m.lastD.all (fun d => d ≤ 3334) &&
  (m.fallRun ≤ 255) && (m.recover ≤ 255)

/-- Alarm last-event and alarm origin are present exactly in ALARM (R130). -/
def MotionRecord.alarmFollowsState (m : MotionRecord) : Bool :=
  (m.alarmAt.isSome == (m.state = .alarm)) && (m.alarmOrigin.isSome == (m.state = .alarm))

/-- A position inside a character (R117): one of its eleven bits and sixteen samples, short of the sample that ends
it; past its sample 9 the start bit decided 0; and no deciding sample is held that is not yet taken. -/
def LinePhase.inBounds : LinePhase → Bool
  | .hunt _ => true
  | .inCharacter bit sample taken =>
    (bit ≤ 10) && (1 ≤ sample) && (sample ≤ 16) && (bit ≠ 10 || sample < 9) &&
    ((bit = 0 && sample < 9) || !charBit taken 0) && (taken.toNat < 2 ^ (3 * bit + min 3 (sample - 6)))

/-- The receiver's bounds (R116). -/
def Receiver.inBounds (r : Receiver) : Bool :=
  r.linePhase.inBounds && r.expected.all (fun x => x ≤ 15) && (r.missRun ≤ 255) &&
  r.openFrame.all (fun f => f.header ≤ 255 && f.axes.length ≤ 5 && f.axes.all fun a => a ≤ 255)

/-- Until the start-up load has completed nothing can reach a working copy (R191): the receiver has not started and
waits for a sample at 1 (R116), the motion state is BLIND (R130), no grant was made (R98) and no request is
outstanding (R170). A supply source settles 20 ms after reset at the earliest (R103), when the load has completed. -/
abbrev State.waitsForTheLoad (s : State) : Prop :=
  (s.store.engine = .startup →
    s.receiver.linePhase = .hunt false ∧ s.receiver.silenceTimer = none ∧ s.motion.state = .blind ∧
      s.arbiter.lastGrant = none ∧ s.arbiter.gapTimer = none ∧ s.portA.outstanding = [] ∧ s.portB.outstanding = []) ∧
  ∀ due ∈ s.arbiter.srcTimer, 20000 ≤ due

/-- Bounds of the sensor's path, with the settings they rest on and what waits for these. -/
abbrev State.motionInBounds (s : State) : Prop :=
  s.store.inRange = true ∧ s.motion.inBounds = true ∧ s.motion.alarmFollowsState = true ∧
    s.receiver.inBounds = true ∧ s.waitsForTheLoad

/-- Every bay's state is one that its demands, its ejector and the motion state allow, and the queue
holds exactly the QUEUED bays. -/
abbrev State.statesAllowed (s : State) : Prop :=
  s.queueMatches ∧ ∀ b, (s.bay b).stateAllowed s.motion.state = true

/-- Every bay's lines, timers and details are those of its state. -/
abbrev State.baysConsistent (s : State) : Prop :=
  ∀ b, (s.bay b).detailsFollowState = true ∧ (s.bay b).linesFollowState = true ∧
    (s.bay b).timersFollowState = true ∧ (s.bay b).monitorHolds = true ∧ (s.bay b).ledFollowsState = true

/-- Everything above together. -/
abbrev State.sound (s : State) : Prop :=
  s.settingsInRange ∧ s.statesAllowed ∧ s.slotsHold ∧ s.releasesHold ∧ s.motionInBounds ∧ s.baysConsistent

/-! ### Histories (log 2) -/

/-- The due moments of the timers of a bay. -/
def Bay.dueMoments (x : Bay) : List Micros :=
  [x.prsTimer, x.ejcTimer, x.fltTimer, x.prkTimer, x.spinupTimer, x.spindownTimer, x.unloadWatch,
   x.dwellTimer, x.headTimer.map Prod.snd, x.pulseTimer, x.ledTimer, x.absenceTimer, x.quietTimer].reduceOption

/-- The end of the store operation in flight; of the start-up load, whose moment is open, the last it may have
(R191). -/
def Engine.dueMoment : Engine → Option Micros
  | .startup => some (dueAfter 0 startupTime)
  | .write _ _ _ due => some due
  | .reload _ due => some due
  | _ => none

/-- The due moments of every timer in flight. -/
def State.dueMoments (s : State) : List Micros :=
  s.bays.toList.flatMap Bay.dueMoments ++
  [s.arbiter.srcTimer, s.arbiter.gapTimer, s.receiver.silenceTimer, s.store.keyTimer,
    s.store.engine.dueMoment].reduceOption ++
  (s.portA.outstanding ++ s.portB.outstanding).filterMap Request.due

/-- No timer's moment has passed without its expiry being taken: the states of a history of the part.
A queue that reaches another state skipped an expiry and stands for nothing the part does. -/
abbrev State.timely (s : State) : Prop := ∀ d ∈ s.dueMoments, s.now ≤ d

/-! ### Frames -/

/-- What no event of a single bay reaches: the other bays, the receiver, the motion record, the shared words,
the store, the supply and the gap. -/
structure BayFrame (b : BayNo) (s t : State) : Prop where
  others : ∀ c, c ≠ b → t.bay c = s.bay c
  receiver : t.receiver = s.receiver
  motion : t.motion = s.motion
  shared : t.shared = s.shared
  store : t.store = s.store
  pending : t.pending = s.pending
  draws : t.draws = s.draws
  supply : t.arbiter.battery = s.arbiter.battery ∧ t.arbiter.srcRaw = s.arbiter.srcRaw ∧
    t.arbiter.srcTimer = s.arbiter.srcTimer ∧ t.arbiter.limit = s.arbiter.limit
  gap : t.arbiter.lastGrant = s.arbiter.lastGrant ∧ t.arbiter.gapTimer = s.arbiter.gapTimer
  queue : ∀ c, c ≠ b → (c ∈ t.arbiter.queue ↔ c ∈ s.arbiter.queue)
  portA : (t.portA.notice, t.portA.discard, t.portA.maskC, t.portA.maskN, t.portA.maskM, t.portA.maskB,
      t.portA.motionChanged) =
    (s.portA.notice, s.portA.discard, s.portA.maskC, s.portA.maskN, s.portA.maskM, s.portA.maskB,
      s.portA.motionChanged)
  portB : (t.portB.notice, t.portB.discard, t.portB.maskC, t.portB.maskN, t.portB.maskM, t.portB.maskB,
      t.portB.motionChanged) =
    (s.portB.notice, s.portB.discard, s.portB.maskC, s.portB.maskN, s.portB.maskM, s.portB.maskB,
      s.portB.motionChanged)
  changed : ∀ c, c ≠ b →
    t.portA.changed.get c = s.portA.changed.get c ∧ t.portB.changed.get c = s.portB.changed.get c

/-- A bay keeps its inputs, their filters, its demands and its snapshot. -/
structure Bay.KeepsInputs (x y : Bay) : Prop where
  raw : (y.prs, y.ejc, y.flt, y.prk, y.idx) = (x.prs, x.ejc, x.flt, x.prk, x.idx)
  settled : (y.present, y.ejectorOpen, y.fltOn, y.prkOn) = (x.present, x.ejectorOpen, x.fltOn, x.prkOn)
  filters : (y.prsTimer, y.ejcTimer, y.fltTimer, y.prkTimer) =
    (x.prsTimer, x.ejcTimer, x.fltTimer, x.prkTimer)
  demands : (y.demandA, y.demandB) = (x.demandA, x.demandB)
  snapshot : y.snapshot = x.snapshot

/-- A bay keeps its speed monitor's record (R61, R64). -/
structure Bay.KeepsSpeed (x y : Bay) : Prop where
  runs : (y.inRun, y.outRun) = (x.inRun, x.outRun)
  period : (y.lastPeriod, y.reference) = (x.lastPeriod, x.reference)

/-- Only the port's frame differs: what a command that reads, or is refused, leaves as it was. -/
structure OnlyFrame (p : Port) (frame : Frame) (s t : State) : Prop where
  port : t.port p = { s.port p with frame := frame }
  peer : t.port p.peer = s.port p.peer
  bays : t.bays = s.bays
  arbiter : t.arbiter = s.arbiter
  receiver : t.receiver = s.receiver
  motion : t.motion = s.motion
  shared : t.shared = s.shared
  store : t.store = s.store
  pending : t.pending = s.pending
  draws : t.draws = s.draws

/-- Only one bay's record differs: what a raw change of one of its lines leaves as it was. -/
structure OnlyBay (b : BayNo) (s t : State) : Prop where
  others : ∀ c, c ≠ b → t.bay c = s.bay c
  ports : (t.portA, t.portB) = (s.portA, s.portB)
  rest : (t.arbiter, t.receiver, t.motion, t.shared, t.store, t.pending, t.draws) =
    (s.arbiter, s.receiver, s.motion, s.shared, s.store, s.pending, s.draws)

/-- The bays, the arbiter, the sensor's path and the shared words are left as they were. -/
abbrev State.sameBeyondPortsAndStore (s t : State) : Prop :=
  (t.bays, t.arbiter, t.receiver, t.motion, t.shared, t.pending, t.draws) =
    (s.bays, s.arbiter, s.receiver, s.motion, s.shared, s.pending, s.draws)

/-! ### The store -/

/-- The record whose write is in flight. -/
def Engine.writing : Engine → Option RecordNo
  | .write (.profile n _) _ _ _ => some (.profile n)
  | .write (.caseRecord _) _ _ _ => some .caseRecord
  | _ => none

/-- What a load of the working copies leaves in them (R191): the contents of each valid record, marked as
taken from it, and the built-in values for each invalid one. -/
abbrev Store.loadedFrom (st new : Store) : Prop :=
  (∀ n, new.workingProfiles.get n =
    if (st.profiles.get n).valid then { values := (st.profiles.get n).contents, fromRecord := true }
    else { values := builtInProfile, fromRecord := false }) ∧
  (new.workingCase =
    if st.caseRecord.valid then { values := st.caseRecord.contents, fromRecord := true }
    else { values := builtInCase, fromRecord := false }) ∧
  (new.profiles, new.caseRecord, new.keyService, new.keyRaw, new.keyTimer) =
    (st.profiles, st.caseRecord, st.keyService, st.keyRaw, st.keyTimer)

/-! ### Who sends an event -/

/-- The command frames: the nineteen commands, an unknown code, and a frame met while starting, each with
the time before it and its port (R170, R171, R172, R175). -/
def commandSender : Instr → Option (Micros × Port)
  | .setDemand dt p _ _ | .readBay dt p _ | .readCase dt p | .senseLines dt p _ _ _
  | .takeCompletion dt p | .cancel dt p _ | .clearFault dt p _ | .ringPeer dt p _ | .takeNotices dt p
  | .setNoticeMask dt p _ | .readShared dt p _ | .writeShared dt p _ _ | .readProfile dt p _
  | .readStored dt p _ | .portRestart dt p | .waitBay dt p _ _ _ _ | .releaseBay dt p _ _ _
  | .writeRecord dt p _ _ _ _ | .reload dt p _ | .unknownCommand dt p | .startingFrame dt p =>
    some (dt, p)
  | _ => none

/-! ### Where R31, R41, R92 and R149 lead -/

/-- Where a bay whose spindle is known to be at rest comes to stand: IDLE, or what the tests made there lead to
(R31, R43, R159). -/
def Bay.restExit (x : Bay) : BayState :=
  if x.releaseCondition then .released
  else if x.merged ≠ .stop && !x.ejectorOpen && !x.fltOn then .queued
  else .idle

/-- Where an entry to SPUN from UNLOADING, LOADING, READY or RETRACTING leads right after a park: the checks
of R41 in their order, then the load condition of R40, which a HEAD_DWELL of 0 lets through. -/
def Bay.spunExit (m : Motion) (x : Bay) : BayState :=
  if x.fltOn then .faulted
  else if x.merged = .stop || x.ejectorOpen || m = .transit then .spinningDown
  else if x.merged = .load && m = .quiet && x.timing.headDwell = 0 then .loading
  else .spun

/-- Where a retract that ends with the heads parked leads (R92); a CLEAR whose spindle is known to be at rest
goes on through SPINNING_DOWN (R72). -/
def Bay.retractExit (m : Motion) (x : Bay) : BayState :=
  match x.cause with
  | some .clear =>
    if x.fltOn then .faulted else if x.quietElapsed && !x.spin then x.restExit else .spinningDown
  | some (.fault _) => .faulted
  | _ => x.spunExit m

/-- The fault kind that exit shows (R50, R92). -/
def Bay.retractFault (m : Motion) (x : Bay) : Option FaultKind :=
  match x.cause with
  | some (.fault k) => some k
  | _ => if x.retractExit m = .faulted then some .carrierFault else none

/-- Where a motion change leads a bay (R47, R82, R83, R85, R96), `now` its moment. -/
def Bay.motionExit (m : Motion) (now : Micros) (x : Bay) : BayState :=
  let unload := if x.prkOn then x.spunExit m else .unloading
  match x.state with
  | .spinningUp => if m = .transit then .spinningDown else .spinningUp
  | .spun =>
    if m = .transit then .spinningDown
    else if x.merged = .load && m = .quiet && x.dwellPassed now then .loading
    else .spun
  | .loading =>
    if m = .quiet || m = .stirred then .loading
    else if x.phase = some .withdraw || m = .alarm then .retracting
    else unload
  | .ready =>
    if m = .quiet || m = .stirred then .ready else if m = .alarm then .retracting else unload
  | .unloading => if m = .alarm then .retracting else .unloading
  | st => st

/-- Where a write of a demand column leads a bay (R8, R31, R32, R37, R40, R45, R82, R83, R85, R160, R161): `y` is
its record with the columns and flags as written, `old` the merged demand before, `now` the moment. -/
def Bay.demandExit (m : Motion) (now : Micros) (old : Demand) (y : Bay) : BayState :=
  let unload := if y.prkOn then y.spunExit m else .unloading
  match y.state with
  | .idle => y.restExit
  | .released => if y.merged = .stop then .released else y.restExit
  | .queued => if y.merged = .stop then y.restExit else .queued
  | .spinningUp => if y.merged = .stop then .spinningDown else .spinningUp
  | .spun =>
    if y.merged = .stop then .spinningDown
    else if y.merged ≠ old && y.merged = .load && m = .quiet && y.dwellPassed now then .loading
    else .spun
  | .loading =>
    if y.merged = .load then .loading else if y.phase = some .withdraw then .retracting else unload
  | .ready => if y.merged = .load then .ready else unload
  | st => st

/-! ### How a bay's event ends requests (R163, R178 to R180) -/

/-- The states a bay entered in an event that took it from `x` to `y`, in order, those left out that no request
waits for: a bay reaches QUEUED, and RELEASED but from EMPTY, by way of IDLE (R31, R159), LOADING by way of SPUN
(R40), and a retract begun in SPINNING_UP by way of SPUN (R41). -/
def Bay.statesEntered (x y : Bay) : List BayState :=
  if y.state = x.state then
    if x.phase = some .settle && y.phase = some .seek then [.spun, .loading] else []
  else
    match y.state with
    | .queued => if x.state = .idle then [.queued] else [.idle, .queued]
    | .released => if x.state = .idle || x.state = .empty then [.released] else [.idle, .released]
    | .loading => if x.state = .spun then [.loading] else [.spun, .loading]
    | .retracting => if x.state = .spinningUp then [.spun, .retracting] else [.retracting]
    | st => [st]

/-- How an event from `s` to `t` ends an outstanding request of a port, with the bay state its record shows; `raised`
says in which bays the port's own demand was written above STOP. -/
def Request.endedBy (raised : BayNo → Bool) (s t : State) (r : Request) :
    Option (Termination × Reason × BayState) :=
  match r.kind with
  | .wait b level =>
    if level ≠ .stop && !(s.bay b).ejectorOpen && (t.bay b).ejectorOpen then
      some (.aborted, .ejected, (t.bay b).state)
    else
      ((s.bay b).statesEntered (t.bay b)).findSome? fun st =>
        if st ∈ waitStates level then some (.complete, .none, st)
        else if level ≠ .stop && st = .faulted then some (.aborted, .fault, st)
        else if level ≠ .stop && st = .empty then some (.aborted, .removed, st)
        else none
  | .release b =>
    if raised b then some (.aborted, .demandRaised, (t.bay b).state)
    else
      ((s.bay b).statesEntered (t.bay b)).findSome? fun st =>
        match st with
        | .released => some (.complete, .none, st)
        | .faulted => some (.aborted, .fault, st)
        | .empty => some (.aborted, .removed, st)
        | _ => none
  | .write | .reload => none

/-- The record of a request for a bay that ends at `now` (R178). -/
def Request.recordAt (now : Micros) (r : Request) (e : Termination × Reason × BayState) : Completion :=
  { tag := r.tag, kind := r.kind.completion, termination := e.1, reason := e.2.1, bay := r.kind.bay?
    bayState := some e.2.2, elapsed := min 65535 (now / 1000 - r.accepted) }

/-- The requests of a port after an event that ended some: the others stay outstanding, the records join the queue
in the order of acceptance (R178). -/
abbrev RequestsEnd (p : Port) (ended : Request → Option (Termination × Reason × BayState)) (s t : State)
    (accepted : List Request) (records : List Completion) : Prop :=
  (t.port p).outstanding = ((s.port p).outstanding.filter fun r => (ended r).isNone) ++ accepted ∧
    (t.port p).completions =
      (s.port p).completions ++
        ((s.port p).outstanding.filterMap fun r => (ended r).map (r.recordAt t.now)) ++ records

/-- The events that act on a port's slots by their own rule: its requests, CANCEL, PORT RESTART, timeouts and the
removal of a record, the ends of store operations, and part reset. -/
def actsOnSlots (p : Port) : Instr → Bool
  | .waitBay _ q _ _ _ _ | .releaseBay _ q _ _ _ | .writeRecord _ q _ _ _ _ | .reload _ q _
  | .cancel _ q _ | .portRestart _ q | .frameEnd _ q _ | .waitBayTimeout q _ | .releaseBayTimeout q _ => q = p
  | .writeEnd _ | .reloadEnd | .partReset => true
  | _ => false

/-- The bays in which an event writes a port's own demand above STOP (R6). -/
def raisesDemand (p : Port) (i : Instr) (b : BayNo) : Bool :=
  match i with
  | .setDemand _ q mask level => q = p && level ≠ 0 && mask.getLsbD b.val
  | _ => false

/-! ### The sensor's characters -/

/-- A clean character on MRX by its deciding samples, as `LineFact.finished` gives them: its eight data bits, its mark
and its stop bit, each held through all three samples (R117, R118). -/
def wireCharacter (value : Byte) (mark stop : Bool) : BitVec 33 :=
  BitVec.ofNat 33
    ((List.range 8).foldl (fun n i => n + (if value.getLsbD i then 7 * 8 ^ (i + 1) else 0)) 0 +
      (if mark then 7 * 8 ^ 9 else 0) + (if stop then 7 * 8 ^ 10 else 0))

end Sys2Proof.Machine
end

