-- ==== Sys2Proof/Certificates/Slice0/Obligations.lean ====
section
/-!
DEFINITION. The statements for the provers. Each cites the rules it formalises; a clause that rests on a choice of
the model's own names its log entry. The moments `s.now + dt` and `max s.now due` are the model's clock, logs 1 and 2.
-/

open Sys2Proof Sys2Proof.Machine

/-! ### Steps and the queue of events -/

/-- One step takes the event at the front of the queue, whole, with the rest of the queue left to later steps
(00_scope.md, Events; the queue is the model's, log 24); with nothing waiting the part idles (DESIGN CHOICE, log 3).
-/
def Obligations.StepTakesTheFrontEvent : Prop :=
  ∀ (s : State),
    (s.pending = [] → step s = .next s) ∧
    ∀ (i : Instr) (rest : List Instr), s.pending = i :: rest → step s = exec i { s with pending := rest }

/-- Every event is taken, in every state: none faults and none is refused, and none reaches the queue of the events
that wait behind it (log 24). -/
def Obligations.EveryEventCompletes : Prop :=
  ∀ (i : Instr) (s : State), ∃ t, exec i s = .next t ∧ t.pending = s.pending

/-! ### Invariants -/

/-- The state right after part reset meets every invariant below; its line levels and what stands before the
start-up load are the model's choice (logs 6 and 7). -/
def Obligations.ResetIsSound : Prop := State.reset.sound

/-- R99: a bay is in the queue exactly when its state is QUEUED, and never twice. -/
def Obligations.StepKeepsTheSpinUpQueue : Prop :=
  ∀ (s t : State), s.queueMatches → step s = .next t → t.queueMatches

/-- R177: at most eight slots in use, and no two outstanding requests of one port share a tag. -/
def Obligations.StepKeepsSlotsAndTags : Prop :=
  ∀ (s t : State), s.slotsHold → step s = .next t → t.slotsHold

/-- R98, R104, R187: every record, working copy and snapshot stays within its ranges, and once the start-up load has
completed the limit in force is the working case record's for the supply source. -/
def Obligations.StepKeepsSettingsInRange : Prop :=
  ∀ (s t : State), s.settingsInRange → step s = .next t → t.settingsInRange

/-- R116, R117, R130 to R135: the motion record and the receiver stay within their bounds, its place in a character
among them, and the alarm fields are present exactly in ALARM. R98, R103, R116, R170, R191: until the start-up load has
completed the receiver has not started and is in HUNT, waiting for a sample at 1, the motion state is BLIND, no grant
was made and no request is outstanding, and no supply source settles before 20 ms, so that nothing reads a working copy
before then. -/
def Obligations.StepKeepsMotionInBounds : Prop :=
  ∀ (s t : State), s.motionInBounds → step s = .next t → t.motionInBounds

/-- Outstanding requests and their bays. Every step keeps these (R11, R12, R13, R159, R163, R179, R180): an outstanding
RELEASE BAY has its flag and its bay in a state that has not ended it, an outstanding WAIT BAY has a bay that neither
meets its level nor aborts it, a RELEASED bay meets the release condition, a set flag goes with STOP and, outside
RELEASED, with an outstanding RELEASE BAY. And every event that does not act on the port's slots by a rule of its own
ends exactly the requests that the bays' state entries, an opening ejector or the port's own raised demand end, each
with its termination, reason and recorded state, in order of acceptance (R163, R178 to R180); every other request,
of whatever bay, stays as it was. Where several of an event's facts could end one, the first decides (log 18). -/
def Obligations.StepKeepsReleases : Prop :=
  (∀ (s t : State), s.statesAllowed → s.releasesHold → step s = .next t → t.releasesHold) ∧
  ∀ (i : Instr) (s t : State) (p : Port),
    s.sound → exec i s = .next t → actsOnSlots p i = false →
    RequestsEnd p (Request.endedBy (raisesDemand p i) s t) s t [] []

/-- R19, R26, R76, R165: fault kind, retract cause and the output lines are those of the state; the LED pattern is the
first of R165 whose condition holds, its line steady for OFF and ON and toggling for SLOW and FAST. -/
def Obligations.StepKeepsLinesWithState : Prop :=
  ∀ (s t : State),
    (∀ b, (s.bay b).detailsFollowState = true ∧ (s.bay b).linesFollowState = true ∧
      (s.bay b).ledFollowsState = true) → step s = .next t →
    ∀ b, (t.bay b).detailsFollowState = true ∧ (t.bay b).linesFollowState = true ∧
      (t.bay b).ledFollowsState = true

/-- R25, R75: every operation in flight has its timer, and no timer outlives its state or phase. -/
def Obligations.StepKeepsTimersWithState : Prop :=
  ∀ (s t : State),
    (∀ b, (s.bay b).timersFollowState = true) → step s = .next t →
    ∀ b, (t.bay b).timersFollowState = true

/-- R18, R28, R64, R65, R71: the runs and tries stay in range with at most one run above 0, the absence timer runs
exactly while SPIN is asserted, the quiet timer runs exactly until quiet has elapsed, and the rest mark goes with
quiet elapsed and SPIN deasserted. -/
def Obligations.StepKeepsTheSpeedMonitors : Prop :=
  ∀ (s t : State),
    s.queueMatches → (∀ b, (s.bay b).monitorHolds = true) → step s = .next t →
    ∀ b, (t.bay b).monitorHolds = true

/-- R2, R31, R40, R42, R49, R82, R96, R157, R159: no bay stands in a state that its demands, its ejector, its
filtered FLT or PRK or the motion state forbid; an IDLE bay meets neither the release condition nor the joining
conditions. -/
def Obligations.StepKeepsStatesAllowed : Prop :=
  ∀ (s t : State), s.statesAllowed → step s = .next t → t.statesAllowed

/-! ### Rules over every event -/

/-- R26: SPIN rises at a grant and at no other event. -/
def Obligations.SpinRisesOnlyAtAGrant : Prop :=
  ∀ (i : Instr) (s t : State) (b : BayNo),
    (∀ dt, i ≠ .grantEvaluation dt) → exec i s = .next t → (s.bay b).spin = false →
    (t.bay b).spin = false

/-- The draw and the limit. R101: the draw is the sum over the eight bays of each bay's contribution, given by its
state and its timing profile, at most 640 with settings in range, and a bay's contribution changes with its state
alone. R106, R109: a bay that an evaluation sends to SPINNING_UP finds the motion gate open and the gap passed; the
draw then counted, its own SURGE included, is within the limit in force; and no other bay is touched. -/
def Obligations.GrantsFitTheLimit : Prop :=
  (∀ (dt : Micros) (s t : State) (b : BayNo),
    s.queueMatches → exec (.grantEvaluation dt) s = .next t → (s.bay b).state ≠ .spinningUp →
    (t.bay b).state = .spinningUp →
    t.draw ≤ t.arbiter.limit ∧ s.motion.state ∈ [.quiet, .stirred, .rough] ∧ s.arbiter.gapTimer = none ∧
      ∀ c, c ≠ b → t.bay c = s.bay c) ∧
  let contribution := fun (x : Bay) =>
    match x.state with
    | .spinningUp => (x.snapshot.elim builtInProfile Snapshot.profile).surge
    | .spun | .loading | .ready | .unloading | .retracting => (x.snapshot.elim builtInProfile Snapshot.profile).run
    | .faulted => if x.spin then (x.snapshot.elim builtInProfile Snapshot.profile).run else 0
    | .empty | .idle | .queued | .spinningDown | .released => 0
  (∀ s : State,
    s.draw = (([0, 1, 2, 3, 4, 5, 6, 7] : List BayNo).map fun b => contribution (s.bay b)).sum ∧
      (s.settingsInRange → s.draw ≤ 640)) ∧
  ∀ (i : Instr) (s t : State) (b : BayNo),
    s.sound → i ≠ .partReset → exec i s = .next t → contribution (t.bay b) ≠ contribution (s.bay b) →
    (t.bay b).state ≠ (s.bay b).state

/-- R5: after part reset both columns of every bay are STOP. A column changes by its own port's SET DEMAND or RELEASE
BAY, or by the bay's entry to EMPTY, where both become STOP, and in no other way: no event of the peer writes it, and
PORT RESTART leaves it. On a part that has started (R170), a port's SET DEMAND can write any level into its own
column of any present bay, and its accepted RELEASE BAY writes STOP there. -/
def Obligations.NeitherPortWritesThePeersColumn : Prop :=
  (∀ (s : State) (p : Port) (b : BayNo), ∃ t, exec .partReset s = .next t ∧ (t.bay b).demand p = .stop) ∧
  (∀ (i : Instr) (s t : State) (p : Port) (b : BayNo),
    exec i s = .next t → i ≠ .partReset →
    ((t.bay b).demand p ≠ (s.bay b).demand p →
      (∃ dt mask level, mask.getLsbD b.val = true ∧ i = .setDemand dt p mask level) ∨
        (∃ dt tag timeout, i = .releaseBay dt p tag (BitVec.ofNat 8 b.val) timeout) ∨
        i = .prsSettleExpiry b ∧ (t.bay b).state = .empty) ∧
    ((s.bay b).state ≠ .empty → (t.bay b).state = .empty → (t.bay b).demand p = .stop)) ∧
  (∀ (s : State) (dt : Micros) (p q : Port) (b : BayNo),
    ∃ t, exec (.portRestart dt p) s = .next t ∧ (t.bay b).demand q = (s.bay b).demand q) ∧
  ∀ (s : State) (dt : Micros) (p : Port) (b : BayNo) (level : Demand) (tag : Byte) (timeout : Half),
    s.store.engine ≠ .startup → (s.bay b).present = true →
    (∃ t, exec (.setDemand dt p (BitVec.ofNat 8 (2 ^ b.val)) (BitVec.ofNat 8 level.rank)) s = .next t ∧
      (t.bay b).demand p = level) ∧
    ((s.bay b).state ≠ .empty → (s.port p).outstanding.length + (s.port p).completions.length < 8 →
      (∀ r ∈ (s.port p).outstanding, r.tag ≠ tag) →
      ∃ t, exec (.releaseBay dt p tag (BitVec.ofNat 8 b.val) timeout) s = .next t ∧ (t.bay b).demand p = .stop)

/-- R14: a bay's snapshot is absent after part reset and after entry to EMPTY. A grant writes it whole, from the working
profile that the working profile map names, with its source: the profile number where a load installed that working
profile from a valid record, BUILT_IN where the record was invalid. Nothing else changes it: no RELOAD, CLEAR FAULT,
spin-down or PORT RESTART. The working copies, likewise, change only at part reset and at the completion of a load
(from R192). -/
def Obligations.SettingsChangeOnlyWhereSaid : Prop :=
  (∀ (s : State) (b : BayNo), ∃ t, exec .partReset s = .next t ∧ (t.bay b).snapshot = none) ∧
  ∀ (i : Instr) (s t : State),
    exec i s = .next t → i ≠ .partReset →
    ((∀ dt, i ≠ .startupLoadComplete dt) → i ≠ .reloadEnd →
      t.store.workingProfiles = s.store.workingProfiles ∧ t.store.workingCase = s.store.workingCase) ∧
    ((∃ dt, i = .startupLoadComplete dt ∧ s.store.engine = .startup) ∨
        (∃ owner due, i = .reloadEnd ∧ s.store.engine = .reload owner due) → ∀ n,
      t.store.workingProfiles.get n =
        if (s.store.profiles.get n).valid then
          { values := (s.store.profiles.get n).contents, fromRecord := true }
        else { values := builtInProfile, fromRecord := false }) ∧
    ∀ b,
      let n := s.store.workingCase.values.profileMap.get b
      let granted : Snapshot :=
        { source := if (s.store.workingProfiles.get n).fromRecord then .profile n else .builtIn
          profile := (s.store.workingProfiles.get n).values }
      ((t.bay b).snapshot ≠ (s.bay b).snapshot →
        (∃ dt, i = .grantEvaluation dt) ∧ (t.bay b).state = .spinningUp ∧ (t.bay b).snapshot = some granted ∨
          i = .prsSettleExpiry b ∧ (t.bay b).state = .empty ∧ (t.bay b).snapshot = none) ∧
      ((s.bay b).state ≠ .spinningUp → (t.bay b).state = .spinningUp → (t.bay b).snapshot = some granted) ∧
      ((s.bay b).state ≠ .empty → (t.bay b).state = .empty → (t.bay b).snapshot = none)

/-! ### Frames of a port -/

/-- R170: while starting, every frame is answered STARTING at byte 1, whatever its command, with no effect. -/
def Obligations.StartingRefusesEveryCommand : Prop :=
  ∀ (s : State) (i : Instr) (dt : Micros) (p : Port),
    s.store.engine = .startup → commandSender i = some (dt, p) →
    ∃ t, exec i s = .next t ∧ t.now = s.now + dt ∧
      OnlyFrame p (.taken (s.port p).frame.status 0 [0xAA] .nothing) s t

/-- R171: a code that names no command is answered UNKNOWN_COMMAND at byte 1; a bay number, shared-word index,
profile index or record number outside its range is refused BAD_PARAMETER after its parameter bytes; neither has any
effect. A frame met while starting does not arise once the part has started (log 21). -/
def Obligations.RefusedFramesHaveNoEffect : Prop :=
  ∀ (s : State) (dt : Micros) (p : Port) (n tag level lock : Byte) (value : Half) (contents : List Byte)
    (idx mrx : Bool) (i : Instr) (params : Nat),
    s.store.engine ≠ .startup →
    (∃ t, exec (.unknownCommand dt p) s = .next t ∧ t.now = s.now + dt ∧
      OnlyFrame p (.taken (s.port p).frame.status 0 [0xA1] .nothing) s t) ∧
    exec (.startingFrame dt p) s = .next { s with now := s.now + dt } ∧
    ((8 ≤ n.toNat ∧
        (i, params) ∈ [(.readBay dt p n, 1), (.senseLines dt p n idx mrx, 1), (.clearFault dt p n, 1),
          (.readShared dt p n, 1), (.writeShared dt p n value, 3), (.waitBay dt p tag n level value, 5),
          (.releaseBay dt p tag n value, 4)] ∨
      5 ≤ n.toNat ∧
        (i, params) ∈ [(.readProfile dt p n, 1), (.readStored dt p n, 1),
          (.writeRecord dt p tag n lock contents, 2)]) →
      ∃ t, exec i s = .next t ∧ t.now = s.now + dt ∧
        OnlyFrame p (.taken (s.port p).frame.status params [0xA2] .nothing) s t)

/-- R168, R169: when select falls the status byte is captured from the eight conditions as they stand, and the
discard report is cleared. -/
def Obligations.SelectFallCapturesTheStatus : Prop :=
  ∀ (s : State) (dt : Micros) (p : Port),
    ∃ t, exec (.selectFall dt p) s = .next t ∧ t.now = s.now + dt ∧
      t.port p =
        { s.port p with
          discard := false
          frame := .begun (BitVec.ofNat 8
            ((decide ((s.port p).completions ≠ [])).toNat + 2 * (decide ((s.port p).notice ≠ 0)).toNat +
              4 * (s.port p).discard.toNat +
              8 * (decide (s.motion.state = .alarm ∨ s.motion.state = .blind)).toNat +
              16 * (decide (∃ b, (s.bay b).state = .faulted)).toNat +
              32 * (decide (s.store.engine ≠ .idle)).toNat +
              64 * (decide (8 ≤ (s.port p).outstanding.length + (s.port p).completions.length)).toNat +
              128 * (decide (s.store.engine = .startup)).toNat)) } ∧
      t.port p.peer = s.port p.peer ∧ s.sameBeyondPortsAndStore t ∧ t.store = s.store

/-- Select rising, and what a frame sends. R169, R173: a frame that ends with no command taken sets the discard report;
the pending clearing of one whose command was taken is carried out exactly when every byte up to the last of its
answer was completed, which the event's count of whole bytes says (log 28); an end with no frame in progress leaves
the port as it was (log 21). R166, R167: while a frame is in progress the port drives its data output, with the
status byte, then 0 for the parameters, the answer, and 0 from there on; with no frame in progress the output is
high-impedance (log 32). -/
def Obligations.FrameEndDiscardsOrClears : Prop :=
  (∀ (s : State) (dt : Micros) (p : Port) (bytes : Nat),
    ∃ t, exec (.frameEnd dt p bytes) s = .next t ∧ t.now = s.now + dt ∧
      t.port p.peer = s.port p.peer ∧ s.sameBeyondPortsAndStore t ∧ t.store = s.store ∧
      (∀ i, (t.port p).frame.outByte i = none) ∧
      t.port p =
        match (s.port p).frame with
        | .idle => s.port p
        | .begun _ => { s.port p with frame := .idle, discard := true }
        | .taken _ params answer clear =>
          if bytes < 1 + params + answer.length then { s.port p with frame := .idle }
          else
            match clear with
            | .nothing => { s.port p with frame := .idle }
            | .bayFlag b => { s.port p with frame := .idle, changed := (s.port p).changed.set b false }
            | .motionFlag => { s.port p with frame := .idle, motionChanged := false }
            | .headRecord => { s.port p with frame := .idle, completions := (s.port p).completions.drop 1 }
            | .noticeBits bits => { s.port p with frame := .idle, notice := (s.port p).notice &&& ~~~bits }) ∧
  ∀ (status : Byte) (params : Nat) (answer : List Byte) (clear : PendingClear) (i : Nat),
    Frame.idle.outByte i = none ∧
      (Frame.begun status).outByte i = some (([status] : List Byte).getD i 0) ∧
      (Frame.taken status params answer clear).outByte i =
        some ((status :: List.replicate params 0 ++ answer).getD i 0)

/-! ### Commands that read -/

/-- READ BAY of a real bay (R1, R172, R173, R194): the twelve bytes of the record as it stands, the clearing of this
port's changed flag pending, nothing else touched. The hold reason it reports is the first of R21 to R24, in their
order, whose condition holds (R20). -/
def Obligations.ReadBayReportsTheRecord : Prop :=
  (∀ (s : State) (dt : Micros) (p : Port) (b : BayNo),
    s.store.engine ≠ .startup →
    ∃ t, exec (.readBay dt p (BitVec.ofNat 8 b.val)) s = .next t ∧ t.now = s.now + dt ∧
      OnlyFrame p
        (.taken (s.port p).frame.status 1
          ([0xA0,
            BitVec.ofNat 8 (s.bay b).state.code,
            BitVec.ofNat 8 ((s.bay b).demandA.rank + 4 * (s.bay b).demandB.rank +
              16 * max (s.bay b).demandA.rank (s.bay b).demandB.rank + 64 * (s.bay b).flagA.toNat +
              128 * (s.bay b).flagB.toNat),
            BitVec.ofNat 8 ((s.bay b).present.toNat + 2 * (s.bay b).ejectorOpen.toNat +
              4 * (s.bay b).fltOn.toNat + 8 * (s.bay b).prkOn.toNat + 16 * (s.bay b).retry.toNat +
              32 * (s.bay b).tries),
            BitVec.ofNat 8 (({ s with now := s.now + dt }.holdReason b).code + 16 * faultCode (s.bay b).fault),
            BitVec.ofNat 8 (causeCode (s.bay b).cause + 8 * pendingCode (s.bay b).cause +
              64 * (s.bay b).lastPark.isSome.toNat),
            BitVec.ofNat 8 (sourceCode (s.bay b).snapshot + 8 * (s.bay b).outRun),
            BitVec.ofNat 8 ((s.bay b).lastPeriod.getD 0 / 256), BitVec.ofNat 8 ((s.bay b).lastPeriod.getD 0),
            BitVec.ofNat 8 (s.bay b).inRun,
            BitVec.ofNat 8 (min 255 ((s.now + dt - (s.bay b).since) / 1000000)),
            BitVec.ofNat 8 ((s.bay b).lastPark.elim 0 (fun u => min 65535 ((s.now + dt) / 1000 - u)) / 256),
            BitVec.ofNat 8 ((s.bay b).lastPark.elim 0 (fun u => min 65535 ((s.now + dt) / 1000 - u)))])
          (.bayFlag b)) s t) ∧
  ∀ (s : State) (b : BayNo),
    let x := s.bay b
    let motion := s.motion.state
    let settings := s.store.workingCase.values
    let surge := fun c : BayNo => (s.store.workingProfiles.get (settings.profileMap.get c)).values.surge
    s.holdReason b =
      if x.present = false then .empty
      else if x.state = .faulted ∨ x.state = .idle ∧ x.fltOn = true then .fault
      else if x.ejectorOpen = true then .ejected
      else if x.merged = .stop ∧
          x.state ∈ [.queued, .spinningUp, .spun, .loading, .ready, .unloading, .retracting, .spinningDown] then
        .noDemand
      else if x.flagA = true ∧ x.demandB ≠ .stop ∨ x.flagB = true ∧ x.demandA ≠ .stop then .releasePeer
      else if x.merged ≠ .stop ∧
          (x.state = .queued ∧ motion ∈ [.transit, .alarm, .blind] ∨
            x.state = .spun ∧ x.merged = .load ∧ motion ∈ [.stirred, .rough, .transit, .alarm, .blind] ∨
            x.state = .spinningDown ∧ motion = .transit ∨
            x.state ∈ [.unloading, .retracting] ∧ x.merged = .load ∧ motion ∈ [.rough, .transit, .alarm, .blind]) then
        .motion
      else if x.state = .queued ∧
          (s.arbiter.limit < surge b ∨ s.arbiter.queue.find? (fun c => surge c ≤ s.arbiter.limit) ≠ some b ∨
            s.arbiter.limit < s.draw + surge b) then
        .budget
      else if x.state = .queued ∧ s.arbiter.lastGrant.any (fun g => s.now / 1000 - g < settings.grantGap) = true then
        .gap
      else if x.state = .spun ∧ x.merged = .load ∧ motion = .quiet ∧
          x.lastPark.any (fun u => s.now / 1000 - u < x.timing.headDwell) = true then
        .dwell
      else if x.state ∈ [.spinningUp, .spinningDown, .loading, .unloading, .retracting] then .inProgress
      else .none

/-- READ CASE (R115, R129, R153, R172, R173, R193, R194): the twenty-two bytes of the motion record, receiver,
arbiter and store items as they stand, the clearing of the motion-changed flag pending. -/
def Obligations.ReadCaseReportsTheCase : Prop :=
  ∀ (s : State) (dt : Micros) (p : Port),
    s.store.engine ≠ .startup →
    ∃ t, exec (.readCase dt p) s = .next t ∧ t.now = s.now + dt ∧
      OnlyFrame p
        (.taken (s.port p).frame.status 0
          ([0xA0,
            BitVec.ofNat 8 (s.motion.state.code + 8 * originCode s.motion.alarmOrigin +
              32 * s.arbiter.battery.toNat + 64 * s.store.keyService.toNat),
            BitVec.ofNat 8 (s.motion.vib / 16 / 256), BitVec.ofNat 8 (s.motion.vib / 16),
            BitVec.ofNat 8 (s.motion.lastE.getD 65535 / 256), BitVec.ofNat 8 (s.motion.lastE.getD 65535),
            BitVec.ofNat 8 (s.motion.lastD.getD 65535 / 256), BitVec.ofNat 8 (s.motion.lastD.getD 65535),
            BitVec.ofNat 8 s.motion.fallRun, BitVec.ofNat 8 s.motion.recover,
            BitVec.ofNat 8 s.receiver.missRun,
            BitVec.ofNat 8 (statusCode s.receiver.lastStatus +
              8 * s.store.workingProfiles.at0.fromRecord.toNat +
              16 * s.store.workingProfiles.at1.fromRecord.toNat +
              32 * s.store.workingProfiles.at2.fromRecord.toNat +
              64 * s.store.workingProfiles.at3.fromRecord.toNat + 128 * s.store.workingCase.fromRecord.toNat),
            BitVec.ofNat 8 s.arbiter.queue.length,
            BitVec.ofNat 8 (16 * (s.arbiter.queue[0]?.elim 15 Fin.val) + s.arbiter.queue[1]?.elim 15 Fin.val),
            BitVec.ofNat 8 (16 * (s.arbiter.queue[2]?.elim 15 Fin.val) + s.arbiter.queue[3]?.elim 15 Fin.val),
            BitVec.ofNat 8 (16 * (s.arbiter.queue[4]?.elim 15 Fin.val) + s.arbiter.queue[5]?.elim 15 Fin.val),
            BitVec.ofNat 8 (16 * (s.arbiter.queue[6]?.elim 15 Fin.val) + s.arbiter.queue[7]?.elim 15 Fin.val),
            BitVec.ofNat 8 (s.draw / 256), BitVec.ofNat 8 s.draw,
            BitVec.ofNat 8 (s.arbiter.limit / 256), BitVec.ofNat 8 s.arbiter.limit,
            BitVec.ofNat 8 (∑ i : Fin 4, 4 ^ i.val *
              (s.store.workingCase.values.profileMap.get ⟨i.val + 4, by omega⟩).val),
            BitVec.ofNat 8 (∑ i : Fin 4, 4 ^ i.val *
              (s.store.workingCase.values.profileMap.get ⟨i.val, by omega⟩).val)])
          .motionFlag) s t

/-- SENSE LINES of a real bay (R172, R194): two bytes of raw levels, the IDX and MRX levels sampled at the pins as
the command is taken (log 5); nothing else touched. -/
def Obligations.SenseLinesReportsRawLevels : Prop :=
  ∀ (s : State) (dt : Micros) (p : Port) (b : BayNo) (idx mrx : Bool),
    s.store.engine ≠ .startup →
    ∃ t, exec (.senseLines dt p (BitVec.ofNat 8 b.val) idx mrx) s = .next t ∧ t.now = s.now + dt ∧
      t.bay b = { s.bay b with idx := idx } ∧ (∀ c, c ≠ b → t.bay c = s.bay c) ∧
      t.receiver = { s.receiver with mrx := mrx } ∧
      (t.arbiter, t.motion, t.shared, t.store, t.pending, t.draws, t.port p.peer) =
        (s.arbiter, s.motion, s.shared, s.store, s.pending, s.draws, s.port p.peer) ∧
      t.port p =
        { s.port p with
          frame := .taken (s.port p).frame.status 1
            [0xA0,
              BitVec.ofNat 8 ((s.bay b).spin.toNat + 2 * (s.bay b).hld.toNat + 4 * (s.bay b).rtr.toNat +
                8 * (s.bay b).led.toNat + 16 * (s.bay b).prs.toNat + 32 * idx.toNat +
                64 * (s.bay b).prk.toNat + 128 * (s.bay b).flt.toNat),
              BitVec.ofNat 8 ((s.bay b).ejc.toNat + 2 * mrx.toNat + 4 * s.arbiter.srcRaw.toNat +
                8 * s.store.keyRaw.toNat)]
            .nothing }

/-- TAKE COMPLETION (R173, R178, R194): the head record, its removal pending; on an empty queue the record of kind
EMPTY and no removal. -/
def Obligations.TakeCompletionReportsTheHead : Prop :=
  ∀ (s : State) (dt : Micros) (p : Port),
    s.store.engine ≠ .startup →
    ∃ t, exec (.takeCompletion dt p) s = .next t ∧ t.now = s.now + dt ∧
      OnlyFrame p
        (match (s.port p).completions with
          | [] => .taken (s.port p).frame.status 0 [0xA0, 0, 0, 0, 0, 0xFF, 0xFF, 0, 0] .nothing
          | r :: _ =>
            .taken (s.port p).frame.status 0
              [0xA0, r.tag, BitVec.ofNat 8 r.kind.code, BitVec.ofNat 8 r.termination.code,
                BitVec.ofNat 8 r.reason.code, BitVec.ofNat 8 (r.bay.elim 255 Fin.val),
                BitVec.ofNat 8 (r.bayState.elim 255 BayState.code), BitVec.ofNat 8 (r.elapsed / 256),
                BitVec.ofNat 8 r.elapsed]
              .headRecord) s t

/-- READ PROFILE and READ STORED (R172, R193): a working profile, or the built-in one for index 4; a stored record
with its flags byte, refused STORE_BUSY while the write engine is busy. -/
def Obligations.ReadProfileAndReadStored : Prop :=
  ∀ (s : State) (dt : Micros) (p : Port) (n : ProfileNo),
    s.store.engine ≠ .startup →
    (∃ t, exec (.readProfile dt p (BitVec.ofNat 8 n.val)) s = .next t ∧ t.now = s.now + dt ∧
      OnlyFrame p (.taken (s.port p).frame.status 1
        (0xA0 :: (s.store.workingProfiles.get n).values.fields.flatMap fun f =>
          [BitVec.ofNat 8 (f / 256), BitVec.ofNat 8 f]) .nothing) s t) ∧
    (∃ t, exec (.readProfile dt p 4) s = .next t ∧ t.now = s.now + dt ∧
      OnlyFrame p (.taken (s.port p).frame.status 1
        (0xA0 :: builtInProfile.fields.flatMap fun f => [BitVec.ofNat 8 (f / 256), BitVec.ofNat 8 f])
        .nothing) s t) ∧
    (∃ t, exec (.readStored dt p (BitVec.ofNat 8 n.val)) s = .next t ∧ t.now = s.now + dt ∧
      OnlyFrame p (.taken (s.port p).frame.status 1
        (if s.store.engine ≠ .idle then [0xA5]
          else 0xA0 ::
            BitVec.ofNat 8 ((s.store.profiles.get n).lock.toNat + 2 * (s.store.profiles.get n).valid.toNat) ::
            (s.store.profiles.get n).contents.fields.flatMap fun f =>
              [BitVec.ofNat 8 (f / 256), BitVec.ofNat 8 f]) .nothing) s t) ∧
    ∃ t, exec (.readStored dt p 4) s = .next t ∧ t.now = s.now + dt ∧
      OnlyFrame p (.taken (s.port p).frame.status 1
        (if s.store.engine ≠ .idle then [0xA5]
          else 0xA0 ::
            BitVec.ofNat 8 (s.store.caseRecord.lock.toNat + 2 * s.store.caseRecord.valid.toNat) ::
            (s.store.caseRecord.contents.fields.flatMap (fun f =>
              [BitVec.ofNat 8 (f / 256), BitVec.ofNat 8 f]) ++
              s.store.caseRecord.contents.profileMap.toList.map fun n => BitVec.ofNat 8 n.val)) .nothing) s t

/-! ### Commands that write -/

/-- SET DEMAND (R5, R6, R11): in every present bay of the mask the port's own column takes the level, clamped to
LOAD, a level above STOP clears the port's flag, and the peer's column stands; every other bay stands whole; the
answer is ACCEPTED. -/
def Obligations.SetDemandWritesTheOwnColumn : Prop :=
  ∀ (s : State) (dt : Micros) (p : Port) (mask level : Byte),
    s.store.engine ≠ .startup →
    ∃ t, exec (.setDemand dt p mask level) s = .next t ∧ t.now = s.now + dt ∧
      (t.port p).frame = .taken (s.port p).frame.status 2 [0xA0] .nothing ∧
      (∀ b, if mask.getLsbD b.val = true ∧ (s.bay b).present = true then
          (t.bay b).demand p = (if level = 0 then .stop else if level = 1 then .spin else .load) ∧
            (t.bay b).demand p.peer = (s.bay b).demand p.peer ∧
            (level ≠ 0 → (t.bay b).flag p = false)
        else t.bay b = s.bay b) ∧
      (t.receiver, t.motion, t.shared, t.store, t.pending, t.draws, t.arbiter.limit, t.arbiter.battery,
          t.arbiter.lastGrant, t.arbiter.gapTimer) =
        (s.receiver, s.motion, s.shared, s.store, s.pending, s.draws, s.arbiter.limit, s.arbiter.battery,
          s.arbiter.lastGrant, s.arbiter.gapTimer)

/-- SET DEMAND and its bays' sequencers. Any mask, in any states (R6, R8, R31, R32, R37, R40, R45, R46, R82, R83, R85,
R99, R160, R161): each present bay of the mask goes where the change of its merged demand sends it from its state, or
stands where the merged demand is unchanged and no test of IDLE or RELEASED moves it; a merged demand that falls to
STOP clears retry pending in IDLE, QUEUED, SPINNING_UP and SPINNING_DOWN and tries used stands; the bays that leave
QUEUED leave the queue, and those that join stand at its back in ascending order of their numbers, IDLE and RELEASED
bays alike. On resting bays (R6, R31, R99): the IDLE bays of the mask that may join enter QUEUED in that order. -/
def Obligations.SetDemandQueuesIdleBaysInOrder : Prop :=
  (∀ (s : State) (dt : Micros) (p : Port) (mask level : Byte),
    s.store.engine ≠ .startup → s.queueMatches → level ≠ 0 →
    (∀ b : BayNo, mask.getLsbD b.val = true → (s.bay b).state = .idle ∧ (s.bay b).present = true ∧
      (s.bay b).ejectorOpen = false ∧ (s.bay b).fltOn = false) →
    ∃ t, exec (.setDemand dt p mask level) s = .next t ∧
      t.arbiter.queue = s.arbiter.queue ++
        ([0, 1, 2, 3, 4, 5, 6, 7] : List BayNo).filter (fun b => mask.getLsbD b.val) ∧
      (∀ b : BayNo, mask.getLsbD b.val = true → (t.bay b).state = .queued ∧ (t.bay b).since = s.now + dt) ∧
      (mask ≠ 0 → t.arbiter.evalOwed = true)) ∧
  ∀ (s : State) (dt : Micros) (p : Port) (mask level : Byte),
    s.store.engine ≠ .startup → s.sound →
    let demand : Demand := if level = 0 then .stop else if level = 1 then .spin else .load
    ∃ t, exec (.setDemand dt p mask level) s = .next t ∧ t.now = s.now + dt ∧
      (∀ b : BayNo,
        let x := s.bay b
        let y := if level = 0 then x.setDemand p .stop else (x.setDemand p demand).setFlag p false
        if mask.getLsbD b.val = true ∧ x.present = true then
          (t.bay b).state = y.demandExit s.motion.state t.now x.merged ∧
          (t.bay b).since = (if (t.bay b).state = x.state then x.since else t.now) ∧
          (t.bay b).tries = x.tries ∧
          (t.bay b).retry =
            (if x.merged ≠ .stop ∧ y.merged = .stop ∧ x.state ∈ [.idle, .queued, .spinningUp, .spinningDown] then false
              else x.retry)
        else t.bay b = x) ∧
      t.arbiter.queue =
        s.arbiter.queue.filter (fun b => (t.bay b).state = .queued) ++
          ([0, 1, 2, 3, 4, 5, 6, 7] : List BayNo).filter (fun b =>
            (s.bay b).state ≠ .queued ∧ (t.bay b).state = .queued) ∧
      ((∃ b, (t.bay b).state ≠ (s.bay b).state) → t.arbiter.evalOwed = true)

/-- CLEAR FAULT of a real bay (R53): NOT_FAULTED, FAULT_ACTIVE, or the bay cleared: a HEADS_STUCK bay retracts with
cause CLEAR and SPIN as it was, any other kind goes to SPINNING_DOWN, with the unload watch where PRK is deasserted,
and on from there where the spindle is known to be at rest. -/
def Obligations.ClearFaultClearsTheBay : Prop :=
  ∀ (s : State) (dt : Micros) (p : Port) (b : BayNo),
    s.store.engine ≠ .startup → s.baysConsistent →
    ∃ t, exec (.clearFault dt p (BitVec.ofNat 8 b.val)) s = .next t ∧ t.now = s.now + dt ∧
      if (s.bay b).state ≠ .faulted then
        OnlyFrame p (.taken (s.port p).frame.status 1 [0xA8] .nothing) s t
      else if (s.bay b).fltOn = true then
        OnlyFrame p (.taken (s.port p).frame.status 1 [0xA9] .nothing) s t
      else
        (t.port p).frame = .taken (s.port p).frame.status 1 [0xA0] .nothing ∧
        BayFrame b s t ∧ (s.bay b).KeepsInputs (t.bay b) ∧ (s.bay b).KeepsSpeed (t.bay b) ∧
        (t.bay b).tries = 0 ∧ (t.bay b).fault = none ∧ (t.bay b).since = s.now + dt ∧
        if (s.bay b).fault = some .headsStuck then
          (t.bay b).state = .retracting ∧ (t.bay b).cause = some .clear ∧ (t.bay b).spin = (s.bay b).spin ∧
            (t.bay b).rtr = true ∧
            (t.bay b).pulseTimer = some (s.now + dt + 1000 * (s.bay b).timing.retractPulse) ∧
            (t.bay b).headTimer = some (.retract, s.now + dt + 1000 * (s.bay b).timing.retractTime)
        else if (s.bay b).prkOn = false then
          (t.bay b).state = .spinningDown ∧ (t.bay b).spin = false ∧
            (t.bay b).unloadWatch = some (s.now + dt + 1000 * (s.bay b).timing.unloadTime) ∧
            (t.bay b).spindownTimer = some (s.now + dt + 1000 * (s.bay b).timing.spindownLimit)
        else if (s.bay b).quietElapsed = true then
          (t.bay b).spin = false ∧ (t.bay b).restMark = true ∧ (t.bay b).state = (s.bay b).restExit
        else
          (t.bay b).state = .spinningDown ∧ (t.bay b).spin = false ∧ (t.bay b).unloadWatch = none ∧
            (t.bay b).spindownTimer = some (s.now + dt + 1000 * (s.bay b).timing.spindownLimit)

/-- The notice words and lines (R173, R182, R184): RING PEER sets bits in the peer's word and keeps them from a pending
clearing, TAKE NOTICES reports the port's own word with its clearing pending, SET NOTICE MASK replaces the four
enables; nothing else is touched. A port's notice line is asserted while one of the four sources holds and is
enabled. -/
def Obligations.NoticeWordsAndMask : Prop :=
  (∀ (s : State) (dt : Micros) (p : Port) (bits : Half) (mask : Byte),
    s.store.engine ≠ .startup →
    (∃ t, exec (.ringPeer dt p bits) s = .next t ∧ t.now = s.now + dt ∧
      s.sameBeyondPortsAndStore t ∧ t.store = s.store ∧
      t.port p = { s.port p with frame := .taken (s.port p).frame.status 2 [0xA0] .nothing } ∧
      (t.port p.peer).notice = (s.port p.peer).notice ||| bits ∧
      (t.port p.peer).frame =
        (match (s.port p.peer).frame with
          | .taken st n answer (.noticeBits returned) => .taken st n answer (.noticeBits (returned &&& ~~~bits))
          | f => f) ∧
      { t.port p.peer with notice := 0, frame := .idle } = { s.port p.peer with notice := 0, frame := .idle }) ∧
    (∃ t, exec (.takeNotices dt p) s = .next t ∧ t.now = s.now + dt ∧
      OnlyFrame p (.taken (s.port p).frame.status 0
        [0xA0, BitVec.ofNat 8 ((s.port p).notice.toNat / 256), BitVec.ofNat 8 (s.port p).notice.toNat]
        (.noticeBits (s.port p).notice)) s t) ∧
    ∃ t, exec (.setNoticeMask dt p mask) s = .next t ∧ t.now = s.now + dt ∧
      s.sameBeyondPortsAndStore t ∧ t.store = s.store ∧ t.port p.peer = s.port p.peer ∧
      t.port p =
        { s.port p with
          frame := .taken (s.port p).frame.status 1 [0xA0] .nothing
          maskC := mask.getLsbD 0, maskN := mask.getLsbD 1, maskM := mask.getLsbD 2, maskB := mask.getLsbD 3 }) ∧
  ∀ u : PortUnit,
    u.noticeLine = true ↔
      u.maskC = true ∧ u.completions ≠ [] ∨ u.maskN = true ∧ u.notice ≠ 0 ∨
        u.maskM = true ∧ u.motionChanged = true ∨ u.maskB = true ∧ ∃ b, u.changed.get b = true

/-- The shared words (R174), on a part that has started (R170), with the frames of their answers (R167, R172): WRITE
SHARED replaces the indexed word, READ SHARED returns it as it stands, either changes nothing else, PORT RESTART does
not touch the words, and part reset leaves every word 0. -/
def Obligations.SharedWords : Prop :=
  ∀ (s : State) (dt : Micros) (p : Port) (index : Byte) (i : Fin 8) (value : Half),
    index.toNat = i.val →
    (s.store.engine ≠ .startup →
      (∃ t, exec (.writeShared dt p index value) s = .next t ∧ t.now = s.now + dt ∧ t.shared.get i = value ∧
        (∀ j, j ≠ i → t.shared.get j = s.shared.get j) ∧
        OnlyFrame p (.taken (s.port p).frame.status 3 [0xA0] .nothing) s { t with shared := s.shared }) ∧
      (∃ t, exec (.readShared dt p index) s = .next t ∧ t.now = s.now + dt ∧
        OnlyFrame p (.taken (s.port p).frame.status 1
          [0xA0, BitVec.ofNat 8 ((s.shared.get i).toNat / 256), BitVec.ofNat 8 (s.shared.get i).toNat]
          .nothing) s t)) ∧
    (∃ t, exec (.portRestart dt p) s = .next t ∧ t.shared = s.shared) ∧
    ∃ t, exec .partReset s = .next t ∧ t.shared.get i = 0

/-- PORT RESTART (R17, R161, R185): the port's requests and records are gone without completions, its word is 0, its
mask enabled, its nine changed flags set, which assert its notice line, its release flags clear; every demand, its own
discard report, everything in the peer port unit and the store stand; a RELEASED bay that rested on the port's flag
alone leaves RELEASED for IDLE, which is handed to the arbiter, and every other bay keeps its state. -/
def Obligations.PortRestartIsLocal : Prop :=
  ∀ (s : State) (dt : Micros) (p : Port),
    s.store.engine ≠ .startup → s.sound →
    let leaves := fun b => (s.bay b).state = .released ∧ (s.bay b).flag p.peer = false ∧ (s.bay b).ejectorOpen = false
    ∃ t, exec (.portRestart dt p) s = .next t ∧ t.now = s.now + dt ∧
      t.port p =
        { s.port p with
          frame := .taken (s.port p).frame.status 0 [0xA0] .nothing
          outstanding := [], completions := [], notice := 0
          maskC := true, maskN := true, maskM := true, maskB := true
          changed := Eight.all true, motionChanged := true } ∧
      (t.port p).noticeLine = true ∧ t.port p.peer = s.port p.peer ∧
      (t.receiver, t.motion, t.shared, t.store, t.pending, t.draws) =
        (s.receiver, s.motion, s.shared, s.store, s.pending, s.draws) ∧
      t.arbiter = { s.arbiter with evalOwed := s.arbiter.evalOwed || decide (∃ b, leaves b) } ∧
      ∀ b, (t.bay b).flag p = false ∧ (s.bay b).KeepsInputs (t.bay b) ∧ (s.bay b).KeepsSpeed (t.bay b) ∧
        ((t.bay b).tries, (t.bay b).retry, (t.bay b).lastPark, (t.bay b).fault, (t.bay b).cause, (t.bay b).spin) =
          ((s.bay b).tries, (s.bay b).retry, (s.bay b).lastPark, (s.bay b).fault, (s.bay b).cause,
            (s.bay b).spin) ∧
        if leaves b then (t.bay b).state = .idle ∧ (t.bay b).since = s.now + dt
        else
          (t.bay b).state = (s.bay b).state ∧ (t.bay b).since = (s.bay b).since ∧
            (t.bay b).flag p.peer = (s.bay b).flag p.peer

/-! ### Requests -/

/-- The checks of a request frame in their order (R177, R188): SLOTS_FULL, TAG_IN_USE, then for the store STORE_BUSY
and PROTECTED; a refused request writes nothing. -/
def Obligations.RequestsAreCheckedInOrder : Prop :=
  ∀ (s : State) (dt : Micros) (p : Port) (tag level lock : Byte) (timeout : Half) (b : BayNo)
    (record : RecordNo) (contents : List Byte) (code : Byte),
    s.store.engine ≠ .startup → contents.length = record.contentBytes →
    let full := 8 ≤ (s.port p).outstanding.length + (s.port p).completions.length
    let inUse := ∃ r ∈ (s.port p).outstanding, r.tag = tag
    let protectedRecord := s.store.keyService = false ∧
      (match record with
        | .profile n => (s.store.profiles.get n).valid = true ∧ (s.store.profiles.get n).lock = true
        | .caseRecord => s.store.caseRecord.valid = true ∧ s.store.caseRecord.lock = true)
    let number : Byte := match record with
      | .profile n => BitVec.ofNat 8 n.val
      | .caseRecord => 4
    let anyRefusal := full ∧ code = 0xA3 ∨ ¬full ∧ inUse ∧ code = 0xA4
    let refused := fun (i : Instr) (params : Nat) =>
      ∃ t, exec i s = .next t ∧ t.now = s.now + dt ∧
        OnlyFrame p (.taken (s.port p).frame.status params [code] .nothing) s t
    (anyRefusal → refused (.waitBay dt p tag (BitVec.ofNat 8 b.val) level timeout) 5) ∧
    (anyRefusal → refused (.releaseBay dt p tag (BitVec.ofNat 8 b.val) timeout) 4) ∧
    (anyRefusal ∨ ¬full ∧ ¬inUse ∧ s.store.engine ≠ .idle ∧ code = 0xA5 → refused (.reload dt p tag) 1) ∧
    (anyRefusal ∨ ¬full ∧ ¬inUse ∧
        (s.store.engine ≠ .idle ∧ code = 0xA5 ∨ s.store.engine = .idle ∧ protectedRecord ∧ code = 0xA6) →
      refused (.writeRecord dt p tag number lock contents) (3 + contents.length))

/-- A WAIT BAY that passes its checks (R177 to R180): it ends in its acceptance COMPLETE, ABORTED or, with timeout
0, EXPIRED with the hold reason, or it stays outstanding; nothing else is touched (due as log 29 gives). -/
def Obligations.WaitBayIsTestedAtAcceptance : Prop :=
  ∀ (s : State) (dt : Micros) (p : Port) (tag : Byte) (b : BayNo) (level : Demand) (timeout : Half),
    s.store.engine ≠ .startup → (s.port p).outstanding.length + (s.port p).completions.length < 8 →
    (∀ r ∈ (s.port p).outstanding, r.tag ≠ tag) →
    let met := match level with
      | .stop => [BayState.idle, .released, .empty]
      | .spin => [.spun]
      | .load => [.ready]
    let ending : Option (Termination × Reason) :=
      if (s.bay b).state ∈ met then some (.complete, .none)
      else if level ≠ .stop ∧ (s.bay b).state = .faulted then some (.aborted, .fault)
      else if level ≠ .stop ∧ (s.bay b).state = .empty then some (.aborted, .removed)
      else if level ≠ .stop ∧ (s.bay b).ejectorOpen = true then some (.aborted, .ejected)
      else if timeout = 0 then some (.expired, { s with now := s.now + dt }.holdReason b)
      else none
    ∃ t, exec (.waitBay dt p tag (BitVec.ofNat 8 b.val) (BitVec.ofNat 8 level.rank) timeout) s = .next t ∧
      t.now = s.now + dt ∧ s.sameBeyondPortsAndStore t ∧ t.store = s.store ∧ t.port p.peer = s.port p.peer ∧
      t.port p =
        match ending with
        | none =>
          { s.port p with
            frame := .taken (s.port p).frame.status 5 [0xA0] .nothing
            outstanding := (s.port p).outstanding ++
              [{ tag := tag, kind := .wait b level, accepted := (s.now + dt) / 1000,
                 due := some (s.now + dt + 1000 * timeout.toNat) }] }
        | some (termination, reason) =>
          { s.port p with
            frame := .taken (s.port p).frame.status 5 [0xA0] .nothing
            completions := (s.port p).completions ++
              [{ tag := tag, kind := .wait, termination := termination, reason := reason, bay := some b,
                 bayState := some (s.bay b).state, elapsed := 0 }] }

/-- A RELEASE BAY that passes its checks, by the state of its bay at acceptance (R7, R8, R162, R163, R178). EMPTY,
FAULTED and RELEASED stand, and the request ends ABORTED with REMOVED or FAULT, or COMPLETE. An IDLE bay whose peer
demand is STOP enters RELEASED, which ends it COMPLETE; with a peer demand above STOP it stays. In any other state
the merged demand acts as that state's rule gives. A request that has not ended then ends EXPIRED where its timeout
is 0, with the hold reason that stands while the flag is set, and is outstanding otherwise (due as log 29 gives). The
column takes STOP; the flag is set but where the request ended ABORTED or EXPIRED with no other RELEASE BAY of the
port for the bay outstanding. The port's other requests end as the bay's event ends them. -/
def Obligations.ReleaseBayActsAtAcceptance : Prop :=
  ∀ (s : State) (dt : Micros) (p : Port) (tag : Byte) (b : BayNo) (timeout : Half),
    s.store.engine ≠ .startup → s.sound →
    (s.port p).outstanding.length + (s.port p).completions.length < 8 →
    (∀ r ∈ (s.port p).outstanding, r.tag ≠ tag) →
    let x := s.bay b
    let now := s.now + dt
    let goes : BayState :=
      match x.state with
      | .empty => .empty
      | .faulted => .faulted
      | .released => .released
      | .idle => if x.demand p.peer = .stop then .released else .idle
      | _ => ((x.setDemand p .stop).setFlag p true).demandExit s.motion.state now x.merged
    ∃ t, exec (.releaseBay dt p tag (BitVec.ofNat 8 b.val) timeout) s = .next t ∧ t.now = now ∧
      (t.port p).frame = .taken (s.port p).frame.status 4 [0xA0] .nothing ∧ BayFrame b s t ∧
      (t.bay b).demand p = .stop ∧ (t.bay b).demand p.peer = x.demand p.peer ∧
      (t.bay b).state = goes ∧ (t.bay b).since = (if goes = x.state then x.since else now) ∧
      let reason := (t.setBay b ((t.bay b).setFlag p true)).holdReason b
      let ending : Option (Termination × Reason) :=
        match goes with
        | .released => some (.complete, .none)
        | .faulted => some (.aborted, .fault)
        | .empty => some (.aborted, .removed)
        | _ => if timeout = 0 then some (.expired, reason) else none
      (t.bay b).flag p =
        (ending = none || ending = some (.complete, .none) ||
          (t.port p).outstanding.any fun r => r.kind = .release b) ∧
      RequestsEnd p (Request.endedBy (fun _ => false) s t) s t
        (if ending = none then
          [{ tag := tag, kind := .release b, accepted := now / 1000, due := some (now + 1000 * timeout.toNat) }]
        else [])
        (match ending with
          | none => []
          | some (termination, reason) =>
            [{ tag := tag, kind := .release, termination := termination, reason := reason, bay := some b
               bayState := some goes, elapsed := 0 }])

/-- WRITE RECORD and RELOAD that pass their checks (R177, R187 to R189, R191): a slot is taken; for a write the
record is invalid from this moment, and the engine carries the clamped contents and the lock flag to an end 20 ms
later; a reload, whatever the key and the locks, ends 2 ms later; no working copy and no other record changes. -/
def Obligations.StoreRequestsStartTheEngine : Prop :=
  (∀ (s : State) (dt : Micros) (p : Port) (tag lock : Byte) (record : RecordNo) (contents : List Byte),
     s.store.engine = .idle → contents.length = record.contentBytes →
     (s.port p).outstanding.length + (s.port p).completions.length < 8 →
     (∀ r ∈ (s.port p).outstanding, r.tag ≠ tag) →
     (s.store.keyService = true ∨
       match record with
       | .profile n => ((s.store.profiles.get n).valid && (s.store.profiles.get n).lock) = false
       | .caseRecord => (s.store.caseRecord.valid && s.store.caseRecord.lock) = false) →
     ∃ t, exec (.writeRecord dt p tag
           (match record with
             | .profile n => BitVec.ofNat 8 n.val
             | .caseRecord => 4) lock contents) s = .next t ∧ t.now = s.now + dt ∧
       s.sameBeyondPortsAndStore t ∧ t.port p.peer = s.port p.peer ∧
       t.port p =
         { s.port p with
           frame := .taken (s.port p).frame.status (3 + contents.length) [0xA0] .nothing
           outstanding := (s.port p).outstanding ++
             [{ tag := tag, kind := .write, accepted := (s.now + dt) / 1000, due := none }] } ∧
       { t.store with engine := .idle, profiles := s.store.profiles, caseRecord := s.store.caseRecord } = s.store ∧
       match record with
       | .profile n =>
         t.store.caseRecord = s.store.caseRecord ∧
         (∀ k, t.store.profiles.get k =
           if k = n then { s.store.profiles.get k with valid := false } else s.store.profiles.get k) ∧
         ∃ values, t.store.engine = .write (.profile n values) (decide (lock ≠ 0)) p (s.now + dt + 20000) ∧
           ∀ i, i < 16 → values.fields.getD i 0 =
             max (profileBounds.getD i (0, 0)).1 (min (profileBounds.getD i (0, 0)).2
               (256 * (contents.getD (2 * i) 0).toNat + (contents.getD (2 * i + 1) 0).toNat))
       | .caseRecord =>
         t.store.profiles = s.store.profiles ∧ t.store.caseRecord = { s.store.caseRecord with valid := false } ∧
         ∃ values, t.store.engine = .write (.caseRecord values) (decide (lock ≠ 0)) p (s.now + dt + 20000) ∧
           (∀ i, i < 17 → values.fields.getD i 0 =
             max (caseBounds.getD i (0, 0)).1 (min (caseBounds.getD i (0, 0)).2
               (256 * (contents.getD (2 * i) 0).toNat + (contents.getD (2 * i + 1) 0).toNat))) ∧
           ∀ b : BayNo, (values.profileMap.get b).val = min 3 (contents.getD (34 + b.val) 0).toNat) ∧
  ∀ (s : State) (dt : Micros) (p : Port) (tag : Byte),
    s.store.engine = .idle → (s.port p).outstanding.length + (s.port p).completions.length < 8 →
    (∀ r ∈ (s.port p).outstanding, r.tag ≠ tag) →
    ∃ t, exec (.reload dt p tag) s = .next t ∧ t.now = s.now + dt ∧
      s.sameBeyondPortsAndStore t ∧ t.port p.peer = s.port p.peer ∧
      t.store = { s.store with engine := .reload p (s.now + dt + 2000) } ∧
      t.port p =
        { s.port p with
          frame := .taken (s.port p).frame.status 1 [0xA0] .nothing
          outstanding := (s.port p).outstanding ++
            [{ tag := tag, kind := .reload, accepted := (s.now + dt) / 1000, due := none }] }

/-- CANCEL (R11, R163, R181): the outstanding request of the tag ends CANCELLED with its record at the back of the
queue, and a RELEASE BAY that was the port's only one for its bay clears its flag; a tag of no outstanding request
is answered NO_SUCH_TAG with no effect. -/
def Obligations.CancelEndsTheTaggedRequest : Prop :=
  ∀ (s : State) (dt : Micros) (p : Port) (tag : Byte),
    s.store.engine ≠ .startup → s.slotsHold →
    ∃ t, exec (.cancel dt p tag) s = .next t ∧ t.now = s.now + dt ∧
      match (s.port p).outstanding.find? (fun r => r.tag = tag) with
      | none => OnlyFrame p (.taken (s.port p).frame.status 1 [0xA7] .nothing) s t
      | some r =>
        t.port p =
          { s.port p with
            frame := .taken (s.port p).frame.status 1 [0xA0] .nothing
            outstanding := (s.port p).outstanding.filter fun q => q.tag ≠ tag
            completions := (s.port p).completions ++
              [{ tag := tag, kind := r.kind.completion, termination := .cancelled, reason := .none,
                 bay := r.kind.bay?, bayState := r.kind.bay?.map fun b => (s.bay b).state,
                 elapsed := min 65535 ((s.now + dt) / 1000 - r.accepted) }] } ∧
        t.port p.peer = s.port p.peer ∧
        (t.arbiter, t.receiver, t.motion, t.shared, t.store, t.pending, t.draws) =
          (s.arbiter, s.receiver, s.motion, s.shared, s.store, s.pending, s.draws) ∧
        ∀ b,
          if r.kind = .release b ∧
              (∀ q ∈ (s.port p).outstanding, q.tag ≠ tag → q.kind ≠ .release b) then
            (t.bay b).flag p = false ∧ (t.bay b).flag p.peer = (s.bay b).flag p.peer ∧
              (t.bay b).state = (s.bay b).state ∧ (s.bay b).KeepsInputs (t.bay b) ∧
              (s.bay b).KeepsSpeed (t.bay b)
          else t.bay b = s.bay b

/-- The timeout of an outstanding WAIT BAY or RELEASE BAY (R11, R163, R180): the request ends EXPIRED with the hold
reason its bay has at that moment; the bay keeps its state and demands. -/
def Obligations.TimeoutsExpireTheRequest : Prop :=
  ∀ (s : State) (p : Port) (r : Request) (b : BayNo) (due : Micros) (i : Instr),
    s.slotsHold → r ∈ (s.port p).outstanding → r.due = some due →
    ((∃ level, r.kind = .wait b level) ∧ i = .waitBayTimeout p r.tag ∨
      r.kind = .release b ∧ i = .releaseBayTimeout p r.tag) →
    ∃ t, exec i s = .next t ∧ t.now = max s.now due ∧
      t.port p =
        { s.port p with
          outstanding := (s.port p).outstanding.filter fun q => q.tag ≠ r.tag
          completions := (s.port p).completions ++
            [{ tag := r.tag, kind := r.kind.completion, termination := .expired,
               reason := { s with now := max s.now due }.holdReason b, bay := some b,
               bayState := some (s.bay b).state,
               elapsed := min 65535 (max s.now due / 1000 - r.accepted) }] } ∧
      t.port p.peer = s.port p.peer ∧
      (t.arbiter, t.receiver, t.motion, t.shared, t.store, t.pending, t.draws) =
        (s.arbiter, s.receiver, s.motion, s.shared, s.store, s.pending, s.draws) ∧
      ∀ c,
        if r.kind = .release c ∧ (∀ q ∈ (s.port p).outstanding, q.tag ≠ r.tag → q.kind ≠ .release c) then
          (t.bay c).flag p = false ∧ (t.bay c).flag p.peer = (s.bay c).flag p.peer ∧
            (t.bay c).state = (s.bay c).state ∧ (s.bay c).KeepsInputs (t.bay c) ∧
            (s.bay c).KeepsSpeed (t.bay c)
        else t.bay c = s.bay c

/-! ### Reset, start-up and the ends of store operations -/

/-- Part reset (R2 to R5, R11, R14, R18, R57, R74, R98, R116, R130, R165, R169, R177 to R185, R188, R190). While it
lasts every output line of every bay and both notice lines are deasserted, neither port drives its data output and no
store operation is in flight; when it ends both notice lines assert. What it leaves, with every line level as it is
(log 26): a record whose write was in flight is left invalid, and every other record is kept. -/
def Obligations.PartResetLeaves : Prop :=
  ∀ (s : State),
    (∀ p, (s.holdReset.port p).noticeLine = false ∧ (s.holdReset.port p).frame.driven = false) ∧
    (∀ b, ((s.holdReset.bay b).spin, (s.holdReset.bay b).hld, (s.holdReset.bay b).rtr, (s.holdReset.bay b).led) =
      (false, false, false, false)) ∧
    s.holdReset.store.engine = .idle ∧
    ∃ t, exec .partReset s = .next t ∧ t = s.holdReset.endReset ∧
      t.portA.noticeLine = true ∧ t.portB.noticeLine = true ∧
      t.now = 0 ∧ t.portA = PortUnit.reset ∧ t.portB = PortUnit.reset ∧
      t.shared = Eight.all 0 ∧ t.pending = s.pending ∧
      (t.arbiter.queue, t.arbiter.lastGrant, t.arbiter.gapTimer, t.arbiter.evalOwed, t.arbiter.battery,
          t.arbiter.srcRaw, t.arbiter.srcTimer, t.draw) =
        ([], none, none, false, s.arbiter.srcRaw, s.arbiter.srcRaw, none, 0) ∧
      t.receiver = { Receiver.reset with mrx := s.receiver.mrx } ∧
      { t.motion with vib := 0 } = { MotionRecord.reset with vib := 0 } ∧
      (t.store.engine, t.store.keyService, t.store.keyRaw, t.store.keyTimer) =
        (.startup, s.store.keyRaw, s.store.keyRaw, none) ∧
      (∀ n,
        if s.store.engine.writing = some (.profile n) then (t.store.profiles.get n).valid = false
        else t.store.profiles.get n = s.store.profiles.get n) ∧
      (if s.store.engine.writing = some .caseRecord then t.store.caseRecord.valid = false
        else t.store.caseRecord = s.store.caseRecord) ∧
      ∀ b,
        ((t.bay b).prs, (t.bay b).ejc, (t.bay b).flt, (t.bay b).prk, (t.bay b).idx, (t.bay b).present,
            (t.bay b).ejectorOpen, (t.bay b).fltOn, (t.bay b).prkOn) =
          ((s.bay b).prs, (s.bay b).ejc, (s.bay b).flt, (s.bay b).prk, (s.bay b).idx, (s.bay b).prs,
            (s.bay b).ejc, (s.bay b).flt, (s.bay b).prk) ∧
        ((t.bay b).demandA, (t.bay b).demandB, (t.bay b).flagA, (t.bay b).flagB, (t.bay b).snapshot,
            (t.bay b).tries, (t.bay b).retry, (t.bay b).lastPark, (t.bay b).restMark, (t.bay b).cause) =
          (.stop, .stop, false, false, none, 0, false, none, false, none) ∧
        ((t.bay b).spin, (t.bay b).hld, (t.bay b).rtr, (t.bay b).inRun, (t.bay b).outRun,
            (t.bay b).lastPeriod, (t.bay b).reference, (t.bay b).absenceTimer, (t.bay b).quietElapsed) =
          (false, false, false, 0, 0, none, none, none, false) ∧
        ((t.bay b).since, (t.bay b).prsTimer, (t.bay b).ejcTimer, (t.bay b).fltTimer, (t.bay b).prkTimer) =
          (0, none, none, none, none) ∧
        ((t.bay b).state, (t.bay b).fault, (t.bay b).quietTimer, (t.bay b).spindownTimer,
            (t.bay b).unloadWatch, (t.bay b).ledPattern, (t.bay b).led, t.holdReason b) =
          (if (s.bay b).prs = false then (.empty, none, none, none, none, .off, false, .empty)
          else if (s.bay b).flt = true then
            (.faulted, some .carrierFault, some 1500000, none, none, .fast, true, .fault)
          else
            (.spinningDown, none, some 1500000, some 30000000,
              if (s.bay b).prk then none else some 800000,
              if (s.bay b).ejc then .slow else .off, (s.bay b).ejc,
              if (s.bay b).ejc then .ejected else .noDemand))

/-- The start-up load (R98, R104, R116, R119, R130, R170, R191): the five working copies at once, the limit in
force, V, and the receiver's start; no stored record, bay or port is touched. It completes when its event is taken,
and 5 ms after the end of reset at the latest (log 20). -/
def Obligations.StartupLoadInstallsTheCopies : Prop :=
  ∀ (s : State) (dt : Micros),
    s.store.engine = .startup →
    ∃ t, exec (.startupLoadComplete dt) s = .next t ∧
      t.now = (if s.now + dt ≤ 5000 then s.now + dt else max s.now 5000) ∧ (s.timely → t.now ≤ 5000) ∧
      s.store.loadedFrom t.store ∧ t.store.engine = .idle ∧
      t.arbiter =
        { s.arbiter with
          limit := if s.arbiter.battery then t.store.workingCase.values.limitBattery
            else t.store.workingCase.values.limitInlet } ∧
      t.motion = { s.motion with vib := 16 * t.store.workingCase.values.effectiveRough } ∧
      t.receiver =
        { s.receiver with silenceTimer := some (t.now + 1000 * t.store.workingCase.values.silenceLimit) } ∧
      (t.bays, t.portA, t.portB, t.shared, t.pending, t.draws) =
        (s.bays, s.portA, s.portB, s.shared, s.pending, s.draws)

/-- The ends of store operations. A write (R189, R190): where verification agrees the record holds the clamped
contents, the lock flag and its marker; where it disagrees the marker stays clear. A reload (R113, R191, R192): the
working copies from the records, the limit in force, the gap judged against the new GRANT_GAP, evaluation owed. The
engine is idle, the request that is still outstanding ends, and bays, snapshots, the queue, the motion record and
the receiver stand. -/
def Obligations.StoreOperationsEnd : Prop :=
  (∀ (s : State) (target : WriteTarget) (lock agrees : Bool) (owner : Port) (due : Micros),
     s.store.engine = .write target lock owner due →
     ∃ t, exec (.writeEnd agrees) s = .next t ∧ t.now = max s.now due ∧
       s.sameBeyondPortsAndStore { t with draws := s.draws } ∧
       t.store.engine = .idle ∧
       { t.store with profiles := s.store.profiles, caseRecord := s.store.caseRecord, engine := .idle } =
         { s.store with engine := .idle } ∧
       (match target with
         | .profile n values =>
           t.store.caseRecord = s.store.caseRecord ∧
           (∀ k, k ≠ n → t.store.profiles.get k = s.store.profiles.get k) ∧
           if agrees then t.store.profiles.get n = { contents := values, lock := lock, valid := true }
           else (t.store.profiles.get n).valid = false
         | .caseRecord values =>
           t.store.profiles = s.store.profiles ∧
           if agrees then t.store.caseRecord = { contents := values, lock := lock, valid := true }
           else t.store.caseRecord.valid = false) ∧
       t.port owner.peer = s.port owner.peer ∧
       t.port owner =
         { s.port owner with
           outstanding := (s.port owner).outstanding.filter fun r => r.kind ≠ .write
           completions := (s.port owner).completions ++
             ((s.port owner).outstanding.filter fun r => r.kind = .write).map fun r =>
               { tag := r.tag, kind := .write, termination := if agrees then .complete else .aborted,
                 reason := if agrees then .none else .storeFault, bay := none, bayState := none,
                 elapsed := min 65535 (max s.now due / 1000 - r.accepted) } }) ∧
  ∀ (s : State) (owner : Port) (due : Micros),
    s.store.engine = .reload owner due →
    ∃ t, exec .reloadEnd s = .next t ∧ t.now = max s.now due ∧ s.store.loadedFrom t.store ∧
      t.store.engine = .idle ∧
      t.arbiter =
        { s.arbiter with
          limit := if s.arbiter.battery then t.store.workingCase.values.limitBattery
            else t.store.workingCase.values.limitInlet
          gapTimer :=
            match s.arbiter.lastGrant with
            | none => none
            | some g =>
              if max s.now due / 1000 - g < t.store.workingCase.values.grantGap then
                some (1000 * (g + t.store.workingCase.values.grantGap))
              else none
          evalOwed := true } ∧
      (t.bays, t.receiver, t.motion, t.shared, t.pending, t.draws, t.port owner.peer) =
        (s.bays, s.receiver, s.motion, s.shared, s.pending, s.draws, s.port owner.peer) ∧
      t.port owner =
        { s.port owner with
          outstanding := (s.port owner).outstanding.filter fun r => r.kind ≠ .reload
          completions := (s.port owner).completions ++
            ((s.port owner).outstanding.filter fun r => r.kind = .reload).map fun r =>
              { tag := r.tag, kind := .reload, termination := .complete, reason := .none, bay := none,
                bayState := none, elapsed := min 65535 (max s.now due / 1000 - r.accepted) } }

/-! ### Input lines -/

/-- Where the filter of an input line stands after its raw level becomes `level` (R48, R77, R103, R154, R188): stopped
at a return to the settled level, started for `ms` milliseconds otherwise; a change to the level the line already has,
which no line makes, leaves it alone (log 21). -/
def Obligations.RawLineChangesRunTheFilters : Prop :=
  ∀ (s : State) (dt : Micros) (b : BayNo) (level : Bool),
    let timer := fun (ms : Nat) (raw settled : Bool) (running : Option Micros) =>
      if level = raw then running
      else if level = settled then none
      else some (s.now + dt + 1000 * ms)
    (∃ t, exec (.prsLineChange dt b level) s = .next t ∧ t.now = s.now + dt ∧ OnlyBay b s t ∧
      t.bay b =
        { s.bay b with
          prs := level, prsTimer := timer 50 (s.bay b).prs (s.bay b).present (s.bay b).prsTimer }) ∧
    (∃ t, exec (.ejcLineChange dt b level) s = .next t ∧ t.now = s.now + dt ∧ OnlyBay b s t ∧
      t.bay b =
        { s.bay b with
          ejc := level, ejcTimer := timer 50 (s.bay b).ejc (s.bay b).ejectorOpen (s.bay b).ejcTimer }) ∧
    (∃ t, exec (.fltLineChange dt b level) s = .next t ∧ t.now = s.now + dt ∧ OnlyBay b s t ∧
      t.bay b =
        { s.bay b with flt := level, fltTimer := timer 2 (s.bay b).flt (s.bay b).fltOn (s.bay b).fltTimer }) ∧
    (∃ t, exec (.prkLineChange dt b level) s = .next t ∧ t.now = s.now + dt ∧ OnlyBay b s t ∧
      t.bay b =
        { s.bay b with prk := level, prkTimer := timer 1 (s.bay b).prk (s.bay b).prkOn (s.bay b).prkTimer }) ∧
    (∃ t, exec (.srcLineChange dt level) s = .next t ∧
      t = { s with
        now := s.now + dt
        arbiter := { s.arbiter with
          srcRaw := level
          srcTimer := timer 20 s.arbiter.srcRaw s.arbiter.battery s.arbiter.srcTimer } }) ∧
    ∃ t, exec (.keyLineChange dt level) s = .next t ∧
      t = { s with
        now := s.now + dt
        store := { s.store with
          keyRaw := level
          keyTimer := timer 20 s.store.keyRaw s.store.keyService s.store.keyTimer } }

/-- Timers of one effect (R103 to R105, R165, R188): a new supply source replaces the limit in force and sets evaluation
owed, the key position follows KEY, the end of the gap sets evaluation owed, and the half-period of a SLOW or FAST
pattern toggles the LED; nothing else is touched. Before the start-up load has completed, where no history has a
settled change of the source (R103, R191), the limit stands (log 20). -/
def Obligations.SettleGapAndLedTimers : Prop :=
  ∀ (s : State) (due : Micros) (b : BayNo),
    (s.arbiter.srcTimer = some due → s.arbiter.srcRaw ≠ s.arbiter.battery →
      ∃ t, exec .srcSettleExpiry s = .next t ∧
        t = { s with
          now := max s.now due
          arbiter := { s.arbiter with
            srcTimer := none
            battery := s.arbiter.srcRaw
            limit := if s.store.engine = .startup then s.arbiter.limit
              else if s.arbiter.srcRaw then s.store.workingCase.values.limitBattery
              else s.store.workingCase.values.limitInlet
            evalOwed := true } }) ∧
    (s.store.keyTimer = some due →
      ∃ t, exec .keySettleExpiry s = .next t ∧
        t = { s with
          now := max s.now due
          store := { s.store with keyTimer := none, keyService := s.store.keyRaw } }) ∧
    (s.arbiter.gapTimer = some due →
      ∃ t, exec .gapTimerExpiry s = .next t ∧
        t = { s with
          now := max s.now due
          arbiter := { s.arbiter with gapTimer := none, evalOwed := true } }) ∧
    ((s.bay b).ledTimer = some due → (s.bay b).ledPattern = .slow ∨ (s.bay b).ledPattern = .fast →
      ∃ t, exec (.ledPatternToggle b) s = .next t ∧ t.now = max s.now due ∧ OnlyBay b s t ∧
        t.bay b =
          { s.bay b with
            led := !(s.bay b).led
            ledTimer := some (max s.now due + if (s.bay b).ledPattern = .slow then 500000 else 125000) })

/-- Removal (R16, R30, R61, R71, R74, R114, R156): a bay whose present field becomes no enters EMPTY from any state,
its lines and its LED deasserted at once, its timers and record cleared, out of the queue, both ports' changed flags
set, while its inputs and their other filters go on. Insertion (R28, R71, R155): a bay whose present field becomes
yes leaves EMPTY for IDLE, or for RELEASED where its ejector is open, with the rest mark and quiet elapsed set and both
changed flags set. -/
def Obligations.PresenceEmptiesAndFillsTheBay : Prop :=
  (∀ (s : State) (b : BayNo) (due : Micros),
     s.queueMatches → ((s.bay b).ledPattern = .off → (s.bay b).led = false ∧ (s.bay b).ledTimer = none) →
     (s.bay b).prsTimer = some due → (s.bay b).prs = false → (s.bay b).present = true →
     ∃ t, exec (.prsSettleExpiry b) s = .next t ∧ t.now = max s.now due ∧ BayFrame b s t ∧
       t.bay b =
         { Bay.reset with
           prs := false, ejc := (s.bay b).ejc, flt := (s.bay b).flt, prk := (s.bay b).prk, idx := (s.bay b).idx
           ejectorOpen := (s.bay b).ejectorOpen, ejcTimer := (s.bay b).ejcTimer, fltOn := (s.bay b).fltOn
           fltTimer := (s.bay b).fltTimer, prkOn := (s.bay b).prkOn, prkTimer := (s.bay b).prkTimer
           since := max s.now due } ∧
       b ∉ t.arbiter.queue ∧ t.arbiter.evalOwed = true ∧
       t.portA.changed.get b = true ∧ t.portB.changed.get b = true) ∧
  ∀ (s : State) (b : BayNo) (due : Micros),
    s.sound → (s.bay b).prsTimer = some due → (s.bay b).prs = true → (s.bay b).state = .empty →
    ∃ t, exec (.prsSettleExpiry b) s = .next t ∧ t.now = max s.now due ∧ BayFrame b s t ∧
      (t.bay b).state = (if (s.bay b).ejectorOpen then .released else .idle) ∧
      ((t.bay b).present, (t.bay b).prsTimer, (t.bay b).restMark, (t.bay b).quietElapsed, (t.bay b).quietTimer,
          (t.bay b).since) = (true, none, true, true, none, max s.now due) ∧
      ((t.bay b).spin, (t.bay b).hld, (t.bay b).rtr, (t.bay b).demandA, (t.bay b).demandB, (t.bay b).flagA,
          (t.bay b).flagB, (t.bay b).fault, (t.bay b).cause) =
        (false, false, false, .stop, .stop, false, false, none, none) ∧
      ((t.bay b).snapshot, (t.bay b).tries, (t.bay b).retry, (t.bay b).lastPark, (t.bay b).lastPeriod,
          (t.bay b).inRun, (t.bay b).outRun, (t.bay b).ejectorOpen, (t.bay b).fltOn, (t.bay b).prkOn) =
        ((s.bay b).snapshot, (s.bay b).tries, (s.bay b).retry, (s.bay b).lastPark, (s.bay b).lastPeriod,
          (s.bay b).inRun, (s.bay b).outRun, (s.bay b).ejectorOpen, (s.bay b).fltOn, (s.bay b).prkOn) ∧
      t.arbiter.evalOwed = true ∧ t.portA.changed.get b = true ∧ t.portB.changed.get b = true

/-- The ejector (R154, R157, R158, R161): where each state goes in the event that opens the field, retry pending
cleared on the way down; closing lifts the cap in IDLE, where the joining conditions are tested, and in RELEASED,
which a bay with no flag leaves. The demands stand, and both ports' changed flags are set. -/
def Obligations.EjectorCapsTheBay : Prop :=
  (∀ (s : State) (b : BayNo) (due : Micros),
     s.sound → (s.bay b).ejcTimer = some due → (s.bay b).ejc = true → (s.bay b).ejectorOpen = false →
     (s.bay b).timing.inRange = true →
     ∃ t, exec (.ejcSettleExpiry b) s = .next t ∧ t.now = max s.now due ∧ BayFrame b s t ∧
       ((t.bay b).ejectorOpen, (t.bay b).ejcTimer, (t.bay b).demandA, (t.bay b).demandB, (t.bay b).snapshot,
           (t.bay b).tries, (t.bay b).present) =
         (true, none, (s.bay b).demandA, (s.bay b).demandB, (s.bay b).snapshot, (s.bay b).tries,
           (s.bay b).present) ∧
       t.portA.changed.get b = true ∧ t.portB.changed.get b = true ∧
       ((s.bay b).state ∈ [.idle, .queued, .spinningUp, .spinningDown] → (t.bay b).retry = false) ∧
       (t.bay b).state =
         match (s.bay b).state with
         | .idle => if (s.bay b).merged = .stop then .released else .idle
         | .queued => .idle
         | .spinningUp | .spun => .spinningDown
         | .loading =>
           if (s.bay b).phase = some .withdraw then .retracting
           else if (s.bay b).prkOn = false then .unloading
           else if (s.bay b).fltOn = true then .faulted
           else .spinningDown
         | .ready =>
           if (s.bay b).prkOn = false then .unloading
           else if (s.bay b).fltOn = true then .faulted
           else .spinningDown
         | .unloading => .retracting
         | st => st) ∧
  ∀ (s : State) (b : BayNo) (due : Micros),
    s.sound → (s.bay b).ejcTimer = some due → (s.bay b).ejc = false → (s.bay b).ejectorOpen = true →
    ∃ t, exec (.ejcSettleExpiry b) s = .next t ∧ t.now = max s.now due ∧ BayFrame b s t ∧
      ((t.bay b).ejectorOpen, (t.bay b).ejcTimer, (t.bay b).demandA, (t.bay b).demandB, (t.bay b).snapshot,
          (t.bay b).tries, (t.bay b).retry) =
        (false, none, (s.bay b).demandA, (s.bay b).demandB, (s.bay b).snapshot, (s.bay b).tries,
          (s.bay b).retry) ∧
      t.portA.changed.get b = true ∧ t.portB.changed.get b = true ∧
      (t.bay b).state =
        match (s.bay b).state with
        | .idle =>
          if (s.bay b).merged ≠ .stop then (if (s.bay b).fltOn then .idle else .queued)
          else if (s.bay b).flagA || (s.bay b).flagB then .released
          else .idle
        | .released => if (s.bay b).flagA || (s.bay b).flagB then .released else .idle
        | st => st

/-- The filtered FLT level (R31, R48, R49): where each state goes when it asserts, with the fault kind or the
retract it begins; deasserting moves an IDLE bay that may now join and no other. -/
def Obligations.FilteredFltActsByState : Prop :=
  ∀ (s : State) (b : BayNo) (due : Micros),
    s.sound → (s.bay b).fltTimer = some due → (s.bay b).flt ≠ (s.bay b).fltOn →
    ∃ t, exec (.fltFilterExpiry b) s = .next t ∧ t.now = max s.now due ∧ BayFrame b s t ∧
      ((t.bay b).fltOn, (t.bay b).fltTimer, (t.bay b).demandA, (t.bay b).demandB, (t.bay b).snapshot,
          (t.bay b).tries, (t.bay b).prkOn, (t.bay b).ejectorOpen, (t.bay b).lastPark) =
        ((s.bay b).flt, none, (s.bay b).demandA, (s.bay b).demandB, (s.bay b).snapshot, (s.bay b).tries,
          (s.bay b).prkOn, (s.bay b).ejectorOpen, (s.bay b).lastPark) ∧
      if (s.bay b).flt = true then
        match (s.bay b).state with
        | .queued | .spinningUp | .spun | .spinningDown | .released =>
          (t.bay b).state = .faulted ∧ (t.bay b).fault = some .carrierFault ∧ (t.bay b).spin = false ∧
            (t.bay b).retry = false ∧ (t.bay b).unloadWatch = none ∧
            t.portA.changed.get b = true ∧ t.portB.changed.get b = true
        | .loading | .ready | .unloading =>
          (t.bay b).state = .retracting ∧ (t.bay b).cause = some (.fault .carrierFault) ∧
            (t.bay b).spin = true ∧ (t.bay b).hld = false ∧ (t.bay b).rtr = true ∧
            (t.bay b).pulseTimer = some (max s.now due + 1000 * (s.bay b).timing.retractPulse) ∧
            (t.bay b).headTimer = some (.retract, max s.now due + 1000 * (s.bay b).timing.retractTime)
        | .empty | .idle | .retracting | .faulted =>
          t.bay b = { s.bay b with fltOn := true, fltTimer := none }
      else if (s.bay b).state = .idle ∧ (s.bay b).merged ≠ .stop ∧ (s.bay b).ejectorOpen = false then
        (t.bay b).state = .queued ∧ t.arbiter.queue = s.arbiter.queue ++ [b]
      else
        (t.bay b).state =
          if (s.bay b).state = .idle ∧ (s.bay b).releaseCondition = true then .released
          else (s.bay b).state

/-- The filtered PRK level (R42, R55, R78, R80, R86, R87, R91, R92, R95). Asserting: an unload watch ends parked;
SETTLE, READY, UNLOADING and a retract past its pulse end parked and leave as R41 and R92 give. Dropping: in SPUN a
STRAY retract begins, in the SEEK phase the SETTLE phase, or READY where LOAD_SETTLE is 0. Every other state takes
the level alone. -/
def Obligations.FilteredPrkActsByState : Prop :=
  (∀ (s : State) (b : BayNo) (due : Micros),
     s.sound → (s.bay b).prkTimer = some due → (s.bay b).prk = true → (s.bay b).prkOn = false →
      ∃ t, exec (.prkFilterExpiry b) s = .next t ∧ t.now = max s.now due ∧ BayFrame b s t ∧
       ((t.bay b).prkOn, (t.bay b).prkTimer, (t.bay b).demandA, (t.bay b).demandB, (t.bay b).snapshot,
           (t.bay b).tries, (t.bay b).fltOn, (t.bay b).ejectorOpen) =
         (true, none, (s.bay b).demandA, (s.bay b).demandB, (s.bay b).snapshot, (s.bay b).tries,
           (s.bay b).fltOn, (s.bay b).ejectorOpen) ∧
       if (s.bay b).state = .spinningDown ∧ (s.bay b).unloadWatch ≠ none then
         (t.bay b).lastPark = some (max s.now due / 1000) ∧ (t.bay b).unloadWatch = none ∧
           if (s.bay b).restMark = true then
             (t.bay b).state = (s.bay b).restExit
           else if (s.bay b).spindownHeld = true then
             (t.bay b).state = .faulted ∧ (t.bay b).fault = some .noStop
           else (t.bay b).state = .spinningDown ∧ (t.bay b).spindownTimer = (s.bay b).spindownTimer
       else if (s.bay b).phase = some .settle ∨ (s.bay b).state = .ready ∨ (s.bay b).state = .unloading then
         (t.bay b).lastPark = some (max s.now due / 1000) ∧
           (t.bay b).state = (s.bay b).spunExit s.motion.state ∧
           ((t.bay b).state = .faulted → (t.bay b).fault = some .carrierFault)
       else if (s.bay b).state = .retracting ∧ (s.bay b).pulseTimer = none then
         (t.bay b).lastPark = some (max s.now due / 1000) ∧
           (t.bay b).state = (s.bay b).retractExit s.motion.state ∧
           (t.bay b).fault = (s.bay b).retractFault s.motion.state ∧ (t.bay b).rtr = false
       else t.bay b = { s.bay b with prkOn := true, prkTimer := none }) ∧
  ∀ (s : State) (b : BayNo) (due : Micros),
    s.sound → (s.bay b).prkTimer = some due → (s.bay b).prk = false → (s.bay b).prkOn = true →
    ∃ t, exec (.prkFilterExpiry b) s = .next t ∧ t.now = max s.now due ∧ BayFrame b s t ∧
      ((t.bay b).prkOn, (t.bay b).prkTimer, (t.bay b).demandA, (t.bay b).demandB, (t.bay b).snapshot,
          (t.bay b).tries, (t.bay b).spin, (t.bay b).lastPark) =
        (false, none, (s.bay b).demandA, (s.bay b).demandB, (s.bay b).snapshot, (s.bay b).tries,
          (s.bay b).spin, (s.bay b).lastPark) ∧
      if (s.bay b).state = .spun then
        (t.bay b).state = .retracting ∧ (t.bay b).cause = some .stray ∧ (t.bay b).rtr = true ∧
          (t.bay b).dwellTimer = none ∧
          (t.bay b).pulseTimer = some (max s.now due + 1000 * (s.bay b).timing.retractPulse) ∧
          (t.bay b).headTimer = some (.retract, max s.now due + 1000 * (s.bay b).timing.retractTime)
      else if (s.bay b).state = .loading ∧ (s.bay b).phase = some .seek then
        (t.bay b).hld = true ∧
          if (s.bay b).timing.loadSettle = 0 then (t.bay b).state = .ready ∧ (t.bay b).headTimer = none
          else
            (t.bay b).state = .loading ∧ (t.bay b).phase = some .settle ∧ (t.bay b).since = (s.bay b).since ∧
              (t.bay b).headTimer = some (.settle, max s.now due + 1000 * (s.bay b).timing.loadSettle)
      else t.bay b = { s.bay b with prkOn := false, prkTimer := none }

/-! ### The speed monitor -/

/-- An index pulse (R58 to R64, R67 to R71, R28): ignored in EMPTY and below the glitch threshold; otherwise the new
reference, the timers and the rest mark; with a reference the period, and while SPIN is asserted its count, with the
at-speed event or the speed-lost event where it is due. The raw IDX level stays asserted after it (log 5). -/
def Obligations.IndexPulseIsJudged : Prop :=
  ∀ (s : State) (dt : Micros) (b : BayNo),
    s.sound →
    let x := s.bay b
    let now := s.now + dt
    let taken : Bay :=
      { x with
        idx := true
        reference := some (now % 2 ^ 24)
        absenceTimer := if x.spin then some (now + 2 * x.timing.pNom) else x.absenceTimer
        quietTimer := some (now + 1000 * x.timing.stopQuiet)
        quietElapsed := false
        restMark := false }
    ∃ t, exec (.idxPulse dt b) s = .next t ∧ t.now = now ∧ BayFrame b s t ∧
      x.KeepsInputs { t.bay b with idx := x.idx } ∧
      match x.reference with
      | none => t.bay b = if x.state = .empty then { x with idx := true } else taken
      | some r =>
        let difference := (now % 2 ^ 24 + 2 ^ 24 - r) % 2 ^ 24
        if x.state = .empty ∨ difference < x.timing.pNom / 4 then t.bay b = { x with idx := true }
        else
          let period := min 65535 difference
          if x.spin = false then t.bay b = { taken with lastPeriod := some period }
          else if ((period : Int) - x.timing.pNom).natAbs * 256 ≤ x.timing.pNom * x.timing.tol then
            ((t.bay b).lastPeriod, (t.bay b).reference, (t.bay b).inRun, (t.bay b).outRun) =
              (some period, some (now % 2 ^ 24), min 64 (x.inRun + 1), 0) ∧
            if x.state = .spinningUp ∧ x.inRun + 1 = x.timing.atSpeedRevs then
              ((t.bay b).tries, (t.bay b).retry, (t.bay b).spinupTimer) = (0, false, none) ∧
                (t.bay b).state =
                  if x.prkOn = false then .retracting
                  else if x.merged = .load ∧ s.motion.state = .quiet ∧
                      x.lastPark.all (fun u => x.timing.headDwell ≤ now / 1000 - u) then .loading
                  else .spun
            else t.bay b = { taken with lastPeriod := some period, inRun := min 64 (x.inRun + 1), outRun := 0 }
          else
            ((t.bay b).lastPeriod, (t.bay b).reference, (t.bay b).inRun, (t.bay b).outRun) =
              (some period, some (now % 2 ^ 24), 0, min 16 (x.outRun + 1)) ∧
            if x.state ∈ [.spun, .loading, .ready, .unloading] ∧ x.timing.lossRevs ≤ min 16 (x.outRun + 1) then
              if x.state = .spun then
                ((t.bay b).state, (t.bay b).fault, (t.bay b).spin) = (.faulted, some .speedLost, false)
              else
                ((t.bay b).state, (t.bay b).cause, (t.bay b).spin, (t.bay b).hld, (t.bay b).rtr) =
                  (.retracting, some (.fault .speedLost), true, false, true)
            else t.bay b = { taken with lastPeriod := some period, inRun := 0, outRun := min 16 (x.outRun + 1) }

/-- An absence and the elapse of quiet (R65, R69, R71, R72): an absence counts as out of band and forgets the
reference; quiet forgets it too, and is the stopped event where SPIN is deasserted in SPINNING_DOWN or FAULTED,
which ends a spin-down that waits for no unload watch. -/
def Obligations.AbsenceAndQuiet : Prop :=
  ∀ (s : State) (b : BayNo) (due : Micros),
    s.sound →
    let x := s.bay b
    let now := max s.now due
    (x.absenceTimer = some due →
      ∃ t, exec (.absenceTimerExpiry b) s = .next t ∧ t.now = now ∧ BayFrame b s t ∧ x.KeepsInputs (t.bay b) ∧
        ((t.bay b).reference, (t.bay b).lastPeriod, (t.bay b).inRun, (t.bay b).outRun) =
          (none, none, 0, min 16 (x.outRun + 1)) ∧
        if x.state ∈ [.spun, .loading, .ready, .unloading] ∧ x.timing.lossRevs ≤ min 16 (x.outRun + 1) then
          if x.state = .spun then
            ((t.bay b).state, (t.bay b).fault, (t.bay b).spin, (t.bay b).absenceTimer) =
              (.faulted, some .speedLost, false, none)
          else
            ((t.bay b).state, (t.bay b).cause, (t.bay b).spin, (t.bay b).absenceTimer) =
              (.retracting, some (.fault .speedLost), true, some (now + 2 * x.timing.pNom))
        else
          t.bay b =
            { x with
              reference := none, lastPeriod := none, inRun := 0, outRun := min 16 (x.outRun + 1)
              absenceTimer := some (now + 2 * x.timing.pNom) }) ∧
    (x.quietTimer = some due →
      ∃ t, exec (.quietTimerExpiry b) s = .next t ∧ t.now = now ∧ BayFrame b s t ∧ x.KeepsInputs (t.bay b) ∧
        let elapsed : Bay :=
          { x with quietTimer := none, quietElapsed := true, reference := none, lastPeriod := none }
        if x.spin = true ∨ x.state ∉ [.spinningDown, .faulted] then t.bay b = elapsed
        else if x.state = .spinningDown ∧ x.unloadWatch = none then
          (t.bay b).state = x.restExit ∧
            ((t.bay b).restMark, (t.bay b).quietElapsed, (t.bay b).quietTimer, (t.bay b).spindownTimer,
              (t.bay b).since) = (true, true, none, none, now) ∧
            (x.restExit = .queued → t.arbiter.queue = s.arbiter.queue ++ [b])
        else t.bay b = { elapsed with restMark := true })

/-- A pulse that arrives exactly 2 × P_NOM after the reference, as the absence timer expires. Taken first, the pulse
gives an out-of-band period of 2 × P_NOM; taken second it gives none; the two orders leave the same state but for
the last period. So no period judged while SPIN is asserted exceeds 2 × P_NOM: a pulse before the absence expires
comes sooner (R66, log 31). -/
def Obligations.PulseAndAbsenceTogether : Prop :=
  ∀ (s : State) (b : BayNo) (r : Nat) (due : Micros),
    s.sound →
    let x := s.bay b
    x.spin = true → x.reference = some r → x.absenceTimer = some due → s.now ≤ due →
    2 * x.timing.pNom ≤ due → (due - 2 * x.timing.pNom) % 2 ^ 24 = r →
    (∃ t u v, exec (.idxPulse (due - s.now) b) s = .next t ∧
      exec (.absenceTimerExpiry b) s = .next u ∧ exec (.idxPulse 0 b) u = .next v ∧
      ((t.bay b).lastPeriod, (t.bay b).outRun) = (some (2 * x.timing.pNom), min 16 (x.outRun + 1)) ∧
      ((v.bay b).lastPeriod, (v.bay b).reference) = (none, (t.bay b).reference) ∧
      v = { t with bays := t.bays.set b { t.bay b with lastPeriod := none } } ∧
      ((t.bay b).spin = true → (t.bay b).absenceTimer = some (due + 2 * x.timing.pNom))) ∧
    ∀ dt, s.now + dt ≤ due → due - 2 * x.timing.pNom ≤ s.now + dt →
      ∃ t, exec (.idxPulse dt b) s = .next t ∧
        ((t.bay b).lastPeriod = x.lastPeriod ∨ ∃ period, (t.bay b).lastPeriod = some period ∧
          period ≤ 2 * x.timing.pNom)

/-! ### Spindle timers -/

/-- SPINUP_LIMIT runs out (R18, R36, R37): one more try used; while tries remain the bay spins down with retry
pending, otherwise it is FAULTED SPINUP_FAILED; SPIN falls either way. -/
def Obligations.SpinupLimitRetriesOrFaults : Prop :=
  ∀ (s : State) (b : BayNo) (due : Micros),
    s.sound → (s.bay b).state = .spinningUp → (s.bay b).spinupTimer = some due →
    let x := s.bay b
    let now := max s.now due
    ∃ t, exec (.spinupLimitExpiry b) s = .next t ∧ t.now = now ∧ BayFrame b s t ∧ x.KeepsInputs (t.bay b) ∧
      x.KeepsSpeed (t.bay b) ∧
      ((t.bay b).tries, (t.bay b).spin, (t.bay b).since, (t.bay b).quietTimer, (t.bay b).unloadWatch) =
        (min 4 (x.tries + 1), false, now, some (now + 1000 * x.timing.stopQuiet), none) ∧
      if x.tries + 1 < x.timing.spinupTries then
        ((t.bay b).state, (t.bay b).retry, (t.bay b).fault, (t.bay b).spindownTimer) =
          (.spinningDown, true, none, some (now + 1000 * x.timing.spindownLimit))
      else
        ((t.bay b).state, (t.bay b).retry, (t.bay b).fault, (t.bay b).spindownTimer) =
            (.faulted, false, some .spinupFailed, none) ∧
          t.portA.changed.get b = true ∧ t.portB.changed.get b = true

/-- SPINDOWN_LIMIT and the unload watch run out (R44, R55): NO_STOP, held while an unload watch runs; HEADS_STUCK,
with SPIN as it was, where the heads were not parked in time. -/
def Obligations.SpindownLimitAndUnloadWatch : Prop :=
  ∀ (s : State) (b : BayNo) (due : Micros),
    s.sound → (s.bay b).state = .spinningDown →
    let x := s.bay b
    let now := max s.now due
    (x.spindownTimer = some due →
      ∃ t, exec (.spindownLimitExpiry b) s = .next t ∧ t.now = now ∧ BayFrame b s t ∧
        x.KeepsInputs (t.bay b) ∧ x.KeepsSpeed (t.bay b) ∧
        if x.unloadWatch ≠ none then t.bay b = { x with spindownTimer := none, spindownHeld := true }
        else
          ((t.bay b).state, (t.bay b).fault, (t.bay b).retry, (t.bay b).since, (t.bay b).spin) =
              (.faulted, some .noStop, false, now, false) ∧
            t.portA.changed.get b = true ∧ t.portB.changed.get b = true) ∧
    (x.unloadWatch = some due →
      ∃ t, exec (.unloadWatchExpiry b) s = .next t ∧ t.now = now ∧ BayFrame b s t ∧
        x.KeepsInputs (t.bay b) ∧ x.KeepsSpeed (t.bay b) ∧
        ((t.bay b).state, (t.bay b).fault, (t.bay b).retry, (t.bay b).since, (t.bay b).spin,
            (t.bay b).unloadWatch, (t.bay b).spindownTimer) =
          (.faulted, some .headsStuck, false, now, x.spin, none, none) ∧
        t.portA.changed.get b = true ∧ t.portB.changed.get b = true)

/-! ### Head timers -/

/-- The dwell timer, and the phases of LOADING (R40, R79 to R81): a dwell that ends finds the load condition or does
nothing more; a load timer that runs out starts the withdrawal; a settle that ends is READY; a withdraw watch that
runs out is LOAD_FAILED, by way of a retract where PRK is deasserted. -/
def Obligations.DwellAndLoadPhases : Prop :=
  ∀ (s : State) (b : BayNo) (due : Micros),
    s.sound →
    let x := s.bay b
    let now := max s.now due
    (x.dwellTimer = some due →
      ∃ t, exec (.dwellTimerExpiry b) s = .next t ∧ t.now = now ∧ BayFrame b s t ∧ x.KeepsInputs (t.bay b) ∧
        x.KeepsSpeed (t.bay b) ∧
        if x.merged = .load ∧ s.motion.state = .quiet ∧
            x.lastPark.all (fun u => x.timing.headDwell ≤ now / 1000 - u) then
          ((t.bay b).state, (t.bay b).phase, (t.bay b).headTimer, (t.bay b).spin, (t.bay b).hld,
              (t.bay b).since, (t.bay b).dwellTimer) =
            (.loading, some .seek, some (.load, now + 1000 * x.timing.loadTime), true, true, now, none)
        else t.bay b = { x with dwellTimer := none }) ∧
    (x.headTimer = some (.load, due) →
      ∃ t, exec (.loadTimerExpiry b) s = .next t ∧ t.now = now ∧ BayFrame b s t ∧
        t.bay b =
          { x with
            hld := false, phase := some .withdraw
            headTimer := some (.withdraw, now + 1000 * x.timing.unloadTime) }) ∧
    (x.headTimer = some (.settle, due) →
      ∃ t, exec (.settleTimerExpiry b) s = .next t ∧ t.now = now ∧ BayFrame b s t ∧ x.KeepsInputs (t.bay b) ∧
        x.KeepsSpeed (t.bay b) ∧
        ((t.bay b).state, (t.bay b).phase, (t.bay b).headTimer, (t.bay b).spin, (t.bay b).hld, (t.bay b).rtr,
            (t.bay b).since) = (.ready, none, none, true, true, false, now)) ∧
    (x.headTimer = some (.withdraw, due) →
      ∃ t, exec (.withdrawWatchExpiry b) s = .next t ∧ t.now = now ∧ BayFrame b s t ∧ x.KeepsInputs (t.bay b) ∧
        x.KeepsSpeed (t.bay b) ∧ (t.bay b).since = now ∧
        if x.prkOn = true then
          ((t.bay b).state, (t.bay b).fault, (t.bay b).lastPark, (t.bay b).spin, (t.bay b).headTimer) =
            (.faulted, some .loadFailed, some (now / 1000), false, none)
        else
          ((t.bay b).state, (t.bay b).cause, (t.bay b).spin, (t.bay b).rtr, (t.bay b).headTimer) =
            (.retracting, some (.fault .loadFailed), true, true,
              some (.retract, now + 1000 * x.timing.retractTime)))

/-- The unload timer and a retract's two timers (R88, R91 to R93): an unload that takes too long is retracted with
HEADS_STUCK pending; the end of the pulse lets PRK be tested; RETRACT_TIME ends the retract parked, leaving by its
cause, or FAULTED HEADS_STUCK with SPIN as it was. -/
def Obligations.UnloadAndRetractTimers : Prop :=
  ∀ (s : State) (b : BayNo) (due : Micros),
    s.sound →
    let x := s.bay b
    let now := max s.now due
    let parked := fun t : State =>
      (t.bay b).lastPark = some (now / 1000) ∧ (t.bay b).state = x.retractExit s.motion.state ∧
        (t.bay b).fault = x.retractFault s.motion.state ∧ (t.bay b).rtr = false ∧ (t.bay b).pulseTimer = none
    (x.headTimer = some (.unload, due) →
      ∃ t, exec (.unloadTimerExpiry b) s = .next t ∧ t.now = now ∧ BayFrame b s t ∧ x.KeepsInputs (t.bay b) ∧
        x.KeepsSpeed (t.bay b) ∧
        ((t.bay b).state, (t.bay b).cause, (t.bay b).spin, (t.bay b).hld, (t.bay b).rtr, (t.bay b).pulseTimer,
            (t.bay b).headTimer, (t.bay b).since) =
          (.retracting, some (.fault .headsStuck), true, false, true,
            some (now + 1000 * x.timing.retractPulse), some (.retract, now + 1000 * x.timing.retractTime), now)) ∧
    (x.pulseTimer = some due →
      ∃ t, exec (.pulseTimerExpiry b) s = .next t ∧ t.now = now ∧ BayFrame b s t ∧ x.KeepsInputs (t.bay b) ∧
        x.KeepsSpeed (t.bay b) ∧
        if x.prkOn = true then parked t else t.bay b = { x with rtr := false, pulseTimer := none }) ∧
    (x.headTimer = some (.retract, due) →
      ∃ t, exec (.retractTimerExpiry b) s = .next t ∧ t.now = now ∧ BayFrame b s t ∧ x.KeepsInputs (t.bay b) ∧
        x.KeepsSpeed (t.bay b) ∧
        if x.prkOn = true then parked t
        else
          ((t.bay b).state, (t.bay b).fault, (t.bay b).spin, (t.bay b).hld, (t.bay b).rtr, (t.bay b).since) =
            (.faulted, some .headsStuck, x.spin, false, false, now) ∧
          t.portA.changed.get b = true ∧ t.portB.changed.get b = true)

/-! ### The arbiter -/

/-- A grant evaluation with its mark set (R33, R104 to R110): the mark is cleared; the oldest queued bay that fits
alone is granted where the motion gate is open, the gap has passed and its SURGE fits beside the draw, and then its
entry to SPINNING_UP sets the mark again; otherwise nothing else happens. The gap timer falls due on a ms boundary
(log 27). -/
def Obligations.GrantEvaluationGrantsTheHead : Prop :=
  ∀ (s : State) (dt : Micros),
    s.queueMatches → s.arbiter.evalOwed = true →
    let now := s.now + dt
    let named := fun b => s.store.workingProfiles.get (s.store.workingCase.values.profileMap.get b)
    let head := s.arbiter.queue.find? fun b => (named b).values.surge ≤ s.arbiter.limit
    let gap := s.store.workingCase.values.grantGap
    ∃ t, exec (.grantEvaluation dt) s = .next t ∧
      match head with
      | some b =>
        if s.motion.state ∈ [.quiet, .stirred, .rough] ∧ s.arbiter.gapTimer = none ∧
            s.draw + (named b).values.surge ≤ s.arbiter.limit then
          t.now = now ∧ (∀ c, c ≠ b → t.bay c = s.bay c) ∧
          (t.receiver, t.motion, t.portA, t.portB, t.shared, t.store, t.pending, t.draws) =
            (s.receiver, s.motion, s.portA, s.portB, s.shared, s.store, s.pending, s.draws) ∧
          t.arbiter =
            { s.arbiter with
              queue := s.arbiter.queue.erase b
              lastGrant := some (now / 1000)
              gapTimer := if gap = 0 then none else some (1000 * (now / 1000 + gap)) } ∧
          ((t.bay b).state, (t.bay b).since, (t.bay b).spin, (t.bay b).restMark, (t.bay b).reference,
              (t.bay b).lastPeriod, (t.bay b).inRun, (t.bay b).outRun) =
            (.spinningUp, now, true, false, none, none, 0, 0) ∧
          ((t.bay b).absenceTimer, (t.bay b).spinupTimer) =
            (some (now + 2 * (named b).values.pNom), some (now + 1000 * (named b).values.spinupLimit)) ∧
          (t.bay b).snapshot =
            some
              { source := if (named b).fromRecord then .profile (s.store.workingCase.values.profileMap.get b)
                  else .builtIn
                profile := (named b).values } ∧
          (s.bay b).KeepsInputs { t.bay b with snapshot := (s.bay b).snapshot } ∧
          ((t.bay b).flagA, (t.bay b).flagB, (t.bay b).tries, (t.bay b).retry, (t.bay b).lastPark,
              (t.bay b).quietTimer, (t.bay b).quietElapsed) =
            ((s.bay b).flagA, (s.bay b).flagB, (s.bay b).tries, (s.bay b).retry, (s.bay b).lastPark,
              (s.bay b).quietTimer, (s.bay b).quietElapsed)
        else t = { s with now := now, arbiter := { s.arbiter with evalOwed := false } }
      | none => t = { s with now := now, arbiter := { s.arbiter with evalOwed := false } }

/-! ### The sensor's path -/

/-- Characters, from the samples of MRX to frame assembly (R117 to R121). Sampling (R117): HUNT finds a start in a
sample at 1 followed by a sample at 0, and none while the line stays at 0; sixteen samples to a bit, `wave` the samples
from the start's first on; a start bit that decides 1 at its sample 9 is a false start; otherwise nothing is found up
to the sample 9 of the stop bit, which finishes the character with the samples 7, 8 and 9 of its eleven bits; either
way the receiver is back in HUNT, where the next sample can be a start (log 33). Characters that cost no sample:
outside a frame one that is no clean header changes nothing; a clean header of kind 0 opens a frame; a clean unmarked
character joins an open frame. A character whose stop bit decided 1 restarts the silence timer. `line` is what was
sampled since the event before (log 13); the MRX level seen is its last sample (log 5). -/
def Obligations.CharactersAssembleFrames : Prop :=
  (∀ (armed level : Bool) (n : Nat),
    (LinePhase.hunt armed).sample level =
        (if armed = true ∧ level = false then (.inCharacter 0 1 0, none) else (.hunt level, none)) ∧
      (LinePhase.hunt false).facts (List.replicate n false) = [] ∧
      (LinePhase.hunt false).after (List.replicate n false) = .hunt false) ∧
  (∀ (wave : Nat → Bool) (taken : BitVec 33),
    wave 0 = false → (∀ i < 11, ∀ j < 3, taken.getLsbD (3 * i + j) = wave (16 * i + 6 + j)) →
    let sampled := fun n => (List.range n).map wave
    if 2 ≤ (wave 6).toNat + (wave 7).toNat + (wave 8).toNat then
      (LinePhase.hunt true).facts (sampled 9) = [.falseStart] ∧
        (LinePhase.hunt true).after (sampled 9) = .hunt (wave 8)
    else
      (∀ n < 168, (LinePhase.hunt true).facts (sampled (n + 1)) = [] ∧
        ∃ held, (LinePhase.hunt true).after (sampled (n + 1)) = .inCharacter (n / 16) (n % 16 + 1) held) ∧
      (LinePhase.hunt true).facts (sampled 169) = [.finished taken] ∧
        (LinePhase.hunt true).after (sampled 169) = .hunt (wave 168)) ∧
  ∀ (s : State) (dt : Micros) (line : List Bool) (samples : BitVec 33) (value : Byte) (f : OpenFrame),
    s.store.engine ≠ .startup → s.receiver.linePhase.facts line = [.finished samples] →
    let silence := s.now + dt + 1000 * s.store.workingCase.values.silenceLimit
    let sampled : State :=
      { s with
        now := s.now + dt
        receiver := { s.receiver with
          linePhase := s.receiver.linePhase.after line, mrx := line.getLastD s.receiver.mrx } }
    let restarted : State := { sampled with receiver := { sampled.receiver with silenceTimer := some silence } }
    (s.receiver.openFrame = none →
      ((∃ i : Fin 11, ¬(samples.getLsbD (3 * i) = samples.getLsbD (3 * i + 1) ∧
          samples.getLsbD (3 * i + 1) = samples.getLsbD (3 * i + 2))) ∨
        (∃ stop, samples = wireCharacter value false stop) ∨ samples = wireCharacter value true false) →
      exec (.characterFinished dt line) s = .next
        (if (samples.getLsbD 30).toNat + (samples.getLsbD 31).toNat + (samples.getLsbD 32).toNat < 2 then sampled
          else restarted)) ∧
    (s.receiver.openFrame = none → value.toNat < 64 → samples = wireCharacter value true true →
      exec (.characterFinished dt line) s = .next
        { restarted with
          receiver := { restarted.receiver with openFrame := some { header := value.toNat, axes := [] } } }) ∧
    (s.receiver.openFrame = some f → f.axes.length < 5 → samples = wireCharacter value false true →
      exec (.characterFinished dt line) s = .next
        { restarted with
          receiver := { restarted.receiver with
            openFrame := some { f with axes := f.axes ++ [value.toNat] } } })

/-- What loses a frame (R121 to R126, R128, R145), `losses` missing samples in one event: a noisy or framing-error
character or another header in an open frame, or a header of another kind, one; a header of another kind in an open
frame, two; a complete frame whose status is SELF_TEST or FAILED, one more than its gap. The one that brings the miss
run to MISS_LIMIT makes a BLIND request, one request however many follow. -/
def Obligations.LostFramesCountAsMissing : Prop :=
  ∀ (s : State) (dt : Micros) (line : List Bool) (samples : BitVec 33) (value : Byte) (opened : Option OpenFrame)
    (status : Option SensorStatus) (expected : Option Nat) (losses : Nat),
    s.sound → s.store.engine ≠ .startup → s.receiver.linePhase.facts line = [.finished samples] →
    let r := s.receiver
    let settings := s.store.workingCase.values
    let asks := decide (settings.missLimit ≤ min 255 (r.missRun + losses)) && !r.limitMark
    let stepped := if asks then none else r.expected.map fun x => (x + losses) % 16
    (r.openFrame ≠ none ∧ losses = 1 ∧ ((∃ i : Fin 11, ¬(samples.getLsbD (3 * i) = samples.getLsbD (3 * i + 1) ∧
            samples.getLsbD (3 * i + 1) = samples.getLsbD (3 * i + 2))) ∨
          ∃ mark, samples = wireCharacter value mark false) ∧
        opened = none ∧ status = r.lastStatus ∧ expected = stepped ∨
      r.openFrame ≠ none ∧ losses = 1 ∧ value.toNat < 64 ∧ samples = wireCharacter value true true ∧
        opened = some { header := value.toNat, axes := [] } ∧ status = r.lastStatus ∧ expected = stepped ∨
      losses = (if r.openFrame = none then 1 else 2) ∧ 64 ≤ value.toNat ∧ samples = wireCharacter value true true ∧
        opened = none ∧ status = r.lastStatus ∧ expected = stepped ∨
      samples = wireCharacter value false true ∧ opened = none ∧
        ∃ f, r.openFrame = some f ∧ f.axes.length = 5 ∧ 2 ≤ f.header / 16 % 4 ∧
          losses = 1 + r.expected.elim 0 (fun x => (f.header % 16 + 16 - x) % 16) ∧
          status = some (if f.header / 16 % 4 = 2 then .selfTest else .failed) ∧
          expected = some ((f.header + 1) % 16)) →
    ∃ t, exec (.characterFinished dt line) s = .next t ∧ t.now = s.now + dt ∧
      (t.receiver.openFrame, t.receiver.lastStatus, t.receiver.expected, t.receiver.missRun,
          t.receiver.limitMark) =
        (opened, status, expected, min 255 (r.missRun + losses), r.limitMark || asks) ∧
      (t.shared, t.store, t.pending, t.draws) = (s.shared, s.store, s.pending, s.draws) ∧
      if asks then
        ((t.motion.state, t.motion.vib, t.motion.fallRun, t.motion.recover) =
            (.blind, 16 * settings.effectiveRough, 0, 0)) ∧
          ∀ b, (t.bay b).state = if s.motion.state = .blind then (s.bay b).state
            else (s.bay b).motionExit .blind t.now
      else
        t.motion =
            { s.motion with
              recover := if s.motion.state = .blind ∨ s.motion.alarmOrigin = some .blind then 0
                else s.motion.recover } ∧
          (t.bays, t.arbiter, t.portA, t.portB) = (s.bays, s.arbiter, s.portA, s.portB)

/-- The magnitude estimate and the deviation of an accepted sample. R132: over the sorted magnitudes L ≥ M ≥ S of
its three axis values E is L + floor(3 × (M + S) / 8), it lies within 0 and 3,584, and it becomes the last E. R133:
D is |E − 250|, it lies within 0 and 3,334 and becomes the last D; the sample carries a shock when D has reached
SHOCK_LEVEL or its status is CLIPPED, and each such sample is an event for the motion machine. -/
def Obligations.MagnitudeAndDeviationOfASample : Prop :=
  ∀ (settings : CaseSettings) (stamp : Millis) (p : Sample) (m : MotionRecord) (l k n : Nat),
    (∀ v ∈ [p.x, p.y, p.z], -2048 ≤ v ∧ v ≤ 2047) →
    [l, k, n].Perm [p.x.natAbs, p.y.natAbs, p.z.natAbs] → l ≥ k → k ≥ n →
    let e := l + 3 * (k + n) / 8
    let d := ((e : Int) - 250).natAbs
    let t := m.accept settings stamp p
    l ≤ 2048 ∧ 3 * (k + n) ≤ 12288 ∧ e ≤ 3584 ∧ d ≤ 3334 ∧ t.lastE = some e ∧ t.lastD = some d ∧
      (p.shock settings = true ↔ settings.shockLevel ≤ d ∨ p.clipped = true) ∧
      (settings.shockLevel ≤ d ∨ p.clipped = true → t.state = .alarm ∧ t.alarmAt = some stamp)

/-- The vibration average (R135): each accepted sample moves V by the two floored terms, the update is nondecreasing
in V and in D and has 53,344 as a fixed point at the largest D, V stays within 0 and 53,344 from every start that
the rules give it, and a missing sample leaves V unchanged. -/
def Obligations.VibrationAverageFollowsTheDeviation : Prop :=
  ∀ (settings : CaseSettings) (stamp : Millis) (p q : Sample) (m m' : MotionRecord),
    settings.inRange = true →
    (m.accept settings stamp p).vib =
      m.vib - m.vib / 2 ^ settings.vibShift + 16 * p.d / 2 ^ settings.vibShift ∧
    (m.vib ≤ m'.vib → p.d ≤ q.d →
      (m.accept settings stamp p).vib ≤ (m'.accept settings stamp q).vib) ∧
    (p.d = 3334 → m.vib = 53344 → (m.accept settings stamp p).vib = 53344) ∧
    (p.d ≤ 3334 → m.vib ≤ 53344 → (m.accept settings stamp p).vib ≤ 53344) ∧
    16 * settings.effectiveRough ≤ 48000 ∧
    m.miss.vib = m.vib

/-- An accepted sample (R123 to R126, R128, R130 to R145, R147, R149): a complete frame of status NORMAL or CLIPPED,
taken after the missing samples of its gap, which may send the classifier to BLIND first, the frame's own result then
judged there; its figures, the motion state, alarm fields and marks it leads to, and what the changes of motion state
do to every bay. Trust earned by the sample turns the origin before the hold is tested (log 14). -/
def Obligations.AcceptedSampleMovesTheClassifier : Prop :=
  ∀ (s : State) (dt : Micros) (line : List Bool) (f : OpenFrame) (last : Byte),
    s.sound → s.store.engine ≠ .startup → s.receiver.openFrame = some f → f.axes.length = 5 →
    f.header / 16 % 4 < 2 → s.receiver.linePhase.facts line = [.finished (wireCharacter last false true)] →
    let settings := s.store.workingCase.values
    let byte := fun i => (f.axes ++ [last.toNat]).getD i 0
    let axis := fun i => (BitVec.ofNat 12 (byte (2 * i) + 256 * byte (2 * i + 1))).toInt
    let clipped := decide (f.header / 16 % 4 = 1)
    let e := magnitude (axis 0) (axis 1) (axis 2)
    let d := ((e : Int) - 250).natAbs
    let gap := s.receiver.expected.elim 0 fun x => (f.header % 16 + 16 - x) % 16
    let asks := gap ≠ 0 ∧ settings.missLimit ≤ min 255 (s.receiver.missRun + gap) ∧ s.receiver.limitMark = false
    let m : MotionRecord :=
      if asks then
        { MotionRecord.reset with
          vib := 16 * settings.effectiveRough, lastE := s.motion.lastE, lastD := s.motion.lastD }
      else if gap ≠ 0 ∧ (s.motion.state = .blind ∨ s.motion.alarmOrigin = some .blind) then
        { s.motion with recover := 0 }
      else s.motion
    let blinded := asks ∧ s.motion.state ≠ .blind
    let vib := m.vib - m.vib / 2 ^ settings.vibShift + 16 * d / 2 ^ settings.vibShift
    let fall := if e ≤ settings.fallLevel then min 255 (m.fallRun + 1) else 0
    let event := clipped = true ∨ settings.shockLevel ≤ d ∨ settings.fallRun ≤ fall ∧ m.fallReported = false
    let calm := vib / 16 < settings.quietLevel
    let rough := settings.effectiveRough ≤ vib / 16
    let recover := if m.state = .blind ∨ m.alarmOrigin = some .blind then min 255 (m.recover + 1) else m.recover
    let trusted := settings.blindRecover ≤ recover
    let stamp := (s.now + dt) / 1000
    ∃ t, exec (.characterFinished dt line) s = .next t ∧ t.now = s.now + dt ∧
      t.receiver =
        { linePhase := s.receiver.linePhase.after line, openFrame := none
          expected := some ((f.header + 1) % 16), missRun := 0, limitMark := false
          lastStatus := some (if clipped then .clipped else .normal)
          silenceTimer := some (s.now + dt + 1000 * settings.silenceLimit)
          mrx := line.getLastD s.receiver.mrx } ∧
      (t.shared, t.store, t.pending, t.draws) = (s.shared, s.store, s.pending, s.draws) ∧
      (t.motion.lastE, t.motion.lastD, t.motion.vib, t.motion.fallRun, t.motion.recover) =
        (some e, some d, vib, fall, recover) ∧
      (t.motion.fallReported = true ↔
        e ≤ settings.fallLevel ∧ (m.fallReported = true ∨ settings.fallRun ≤ fall)) ∧
      (event → t.motion.state = .alarm ∧ t.motion.alarmAt = some stamp ∧
        t.motion.alarmOrigin =
          match m.state with
          | .quiet | .stirred | .rough => some .rough
          | .transit => some .transit
          | .blind => some (if trusted then .rough else .blind)
          | .alarm => if m.alarmOrigin = some .blind ∧ trusted then some .rough else m.alarmOrigin) ∧
      (¬event → t.motion.state =
        match m.state with
        | .quiet => if rough then .rough else if calm then .quiet else .stirred
        | .stirred =>
          if rough then .rough
          else if calm ∧ settings.quietDwell ≤ stamp - m.calmSince.getD stamp then .quiet
          else .stirred
        | .rough =>
          if ¬rough ∧ settings.roughDwell ≤ stamp - m.smoothSince.getD stamp then .stirred
          else if m.roughSince.any (fun u => 1000 * settings.transitDwell ≤ stamp - u) then .transit
          else .rough
        | .transit =>
          if calm ∧ 1000 * settings.transitExitDwell ≤ stamp - m.calmSince.getD stamp then .stirred
          else .transit
        | .alarm =>
          if m.alarmAt.any (fun u => settings.alarmHold ≤ stamp - u) then
            if m.alarmOrigin = some .transit then .transit
            else if m.alarmOrigin = some .blind ∧ ¬trusted then .blind
            else .rough
          else .alarm
        | .blind => if trusted then .rough else .blind) ∧
      (t.motion.state = .stirred ∨ t.motion.state = .transit →
        t.motion.calmSince =
          if calm then some (if t.motion.state = m.state then m.calmSince.getD stamp else stamp) else none) ∧
      (t.motion.state = .rough →
        t.motion.smoothSince =
            (if rough then none else some (if m.state = .rough then m.smoothSince.getD stamp else stamp)) ∧
          t.motion.roughSince = if m.state = .rough then m.roughSince else some stamp) ∧
      if ¬blinded ∧ t.motion.state = m.state then
        (t.bays, t.arbiter, t.portA, t.portB) = (s.bays, s.arbiter, s.portA, s.portB)
      else
        t.arbiter.evalOwed = true ∧ t.portA.motionChanged = true ∧ t.portB.motionChanged = true ∧
          ∀ b, (s.bay b).KeepsInputs (t.bay b) ∧ (s.bay b).KeepsSpeed (t.bay b) ∧
            let first := if blinded then (s.bay b).motionExit .blind t.now else (s.bay b).state
            (t.bay b).state =
              if t.motion.state = m.state then first
              else if asks then (if t.motion.state = .alarm ∧ first = .unloading then .retracting else first)
              else (s.bay b).motionExit t.motion.state t.now

/-- The silence event and a false start (R117, R127, R128, R145, R146, R149): silence loses an open frame, and is a
BLIND entry or re-entry whatever the miss run, which moves every bay that BLIND moves; samples whose starts are all
false move the line phase as the sampling of R117 gives, back to HUNT at each false start, and nothing else but the MRX
level seen (log 5). -/
def Obligations.SilenceBlindsAndFalseStartsDoNot : Prop :=
  ∀ (s : State) (due dt : Micros) (line : List Bool),
    (s.sound → s.receiver.silenceTimer = some due →
      ∃ t, exec .silenceTimerExpiry s = .next t ∧ t.now = max s.now due ∧
        (t.receiver.openFrame, t.receiver.expected, t.receiver.silenceTimer, t.receiver.lastStatus,
            t.receiver.missRun) =
          (none, none, none, s.receiver.lastStatus,
            if s.receiver.openFrame = none then s.receiver.missRun else min 255 (s.receiver.missRun + 1)) ∧
        t.motion =
          { MotionRecord.reset with
            vib := 16 * s.store.workingCase.values.effectiveRough
            lastE := s.motion.lastE, lastD := s.motion.lastD } ∧
        (t.shared, t.store, t.pending, t.draws) = (s.shared, s.store, s.pending, s.draws) ∧
        if s.motion.state = .blind then
          (t.bays, t.arbiter, t.portA, t.portB) = (s.bays, s.arbiter, s.portA, s.portB)
        else
          t.arbiter.evalOwed = true ∧ t.portA.motionChanged = true ∧ t.portB.motionChanged = true ∧
            ∀ b, (t.bay b).state = (s.bay b).motionExit .blind t.now ∧
              (s.bay b).KeepsInputs (t.bay b) ∧ (s.bay b).KeepsSpeed (t.bay b)) ∧
    (s.store.engine ≠ .startup → (∀ x ∈ s.receiver.linePhase.facts line, x = .falseStart) →
      exec (.mrxFalseStart { dt := dt, line := line }) s =
        .next
          { s with
            now := s.now + dt
            receiver := { s.receiver with
              linePhase := s.receiver.linePhase.after line, mrx := line.getLastD s.receiver.mrx } })
end

