-- ==== Sys2Proof/Laws/Tables.lean ====
section
/-!
SUPPORT. Reading and writing the fixed-size tables: what a read finds after a write, and that a table is what its
reads give.
-/

namespace Sys2Proof

@[simp] theorem Eight.get_all {α : Type} (x : α) (i : BayNo) : (Eight.all x).get i = x := by
  fin_cases i <;> rfl

@[simp] theorem Eight.get_set {α : Type} (t : Eight α) (i : BayNo) (x : α) : (t.set i x).get i = x := by
  fin_cases i <;> rfl

@[simp] theorem Eight.get_set_of_ne {α : Type} (t : Eight α) {i j : BayNo} (x : α) (h : j ≠ i) :
    (t.set i x).get j = t.get j := by
  fin_cases i <;> fin_cases j <;> first | rfl | exact absurd rfl h

theorem Eight.get_set_eq {α : Type} (t : Eight α) (i j : BayNo) (x : α) :
    (t.set i x).get j = if j = i then x else t.get j := by
  by_cases h : j = i
  · subst h; simp
  · simp [h]

theorem Eight.ext_get {α : Type} {t u : Eight α} (h : ∀ i, t.get i = u.get i) : t = u := by
  have h0 := h 0; have h1 := h 1; have h2 := h 2; have h3 := h 3
  have h4 := h 4; have h5 := h 5; have h6 := h 6; have h7 := h 7
  cases t; cases u
  simp only [Eight.get] at h0 h1 h2 h3 h4 h5 h6 h7
  subst h0 h1 h2 h3 h4 h5 h6 h7
  rfl

@[simp] theorem Eight.set_get {α : Type} (t : Eight α) (i : BayNo) : t.set i (t.get i) = t :=
  Eight.ext_get fun j => by rw [Eight.get_set_eq]; split <;> simp_all

@[simp] theorem Eight.set_set {α : Type} (t : Eight α) (i : BayNo) (x y : α) :
    (t.set i x).set i y = t.set i y :=
  Eight.ext_get fun j => by simp only [Eight.get_set_eq]; split <;> rfl

theorem Eight.mem_toList {α : Type} (t : Eight α) (x : α) : x ∈ t.toList ↔ ∃ i, t.get i = x := by
  constructor
  · intro h
    simp only [Eight.toList, List.mem_cons, List.not_mem_nil, or_false] at h
    obtain h | h | h | h | h | h | h | h := h
    exacts [⟨0, h.symm⟩, ⟨1, h.symm⟩, ⟨2, h.symm⟩, ⟨3, h.symm⟩, ⟨4, h.symm⟩, ⟨5, h.symm⟩, ⟨6, h.symm⟩, ⟨7, h.symm⟩]
  · rintro ⟨i, rfl⟩
    fin_cases i <;> simp [Eight.toList, Eight.get]

@[simp] theorem Four.get_all {α : Type} (x : α) (i : ProfileNo) : (Four.all x).get i = x := by
  fin_cases i <;> rfl

@[simp] theorem Four.get_set {α : Type} (t : Four α) (i : ProfileNo) (x : α) : (t.set i x).get i = x := by
  fin_cases i <;> rfl

@[simp] theorem Four.get_set_of_ne {α : Type} (t : Four α) {i j : ProfileNo} (x : α) (h : j ≠ i) :
    (t.set i x).get j = t.get j := by
  fin_cases i <;> fin_cases j <;> first | rfl | exact absurd rfl h

@[simp] theorem Four.get_map {α β : Type} (f : α → β) (t : Four α) (i : ProfileNo) :
    (t.map f).get i = f (t.get i) := by
  fin_cases i <;> rfl

theorem Four.every_iff {α : Type} (f : α → Bool) (t : Four α) : t.every f = true ↔ ∀ i, f (t.get i) = true := by
  constructor
  · intro h i
    simp only [Four.every, Bool.and_eq_true] at h
    fin_cases i
    exacts [h.1.1.1, h.1.1.2, h.1.2, h.2]
  · intro h
    simp [Four.every, show f t.at0 = true from h 0, show f t.at1 = true from h 1, show f t.at2 = true from h 2,
      show f t.at3 = true from h 3]

/-- Every bay number is in the list of bay numbers. -/
@[simp] theorem mem_bayNos (b : BayNo) : b ∈ bayNos := by
  fin_cases b <;> decide

end Sys2Proof
end

