-- ==== Sys2Proof/Laws/State.lean ====
section
/-!
SUPPORT. What each named update of State.lean's records leaves in each field, tagged for simp, so that no proof
unfolds a record update.
-/

namespace Sys2Proof.Machine


/-! ### State -/

@[simp] theorem State.advance_pending (s : State) (dt : Micros) : (s.advance dt).pending = s.pending := rfl
@[simp] theorem State.advance_now (s : State) (dt : Micros) : (s.advance dt).now = s.now + dt := rfl
@[simp] theorem State.advance_draws (s : State) (dt : Micros) : (s.advance dt).draws = s.draws := rfl
@[simp] theorem State.advance_bays (s : State) (dt : Micros) : (s.advance dt).bays = s.bays := rfl
@[simp] theorem State.advance_arbiter (s : State) (dt : Micros) : (s.advance dt).arbiter = s.arbiter := rfl
@[simp] theorem State.advance_receiver (s : State) (dt : Micros) : (s.advance dt).receiver = s.receiver := rfl
@[simp] theorem State.advance_motion (s : State) (dt : Micros) : (s.advance dt).motion = s.motion := rfl
@[simp] theorem State.advance_portA (s : State) (dt : Micros) : (s.advance dt).portA = s.portA := rfl
@[simp] theorem State.advance_portB (s : State) (dt : Micros) : (s.advance dt).portB = s.portB := rfl
@[simp] theorem State.advance_shared (s : State) (dt : Micros) : (s.advance dt).shared = s.shared := rfl
@[simp] theorem State.advance_store (s : State) (dt : Micros) : (s.advance dt).store = s.store := rfl
@[simp] theorem State.advanceTo_pending (s : State) (due : Micros) : (s.advanceTo due).pending = s.pending := rfl
@[simp] theorem State.advanceTo_now (s : State) (due : Micros) : (s.advanceTo due).now = max s.now due := rfl
@[simp] theorem State.advanceTo_draws (s : State) (due : Micros) : (s.advanceTo due).draws = s.draws := rfl
@[simp] theorem State.advanceTo_bays (s : State) (due : Micros) : (s.advanceTo due).bays = s.bays := rfl
@[simp] theorem State.advanceTo_arbiter (s : State) (due : Micros) : (s.advanceTo due).arbiter = s.arbiter := rfl
@[simp] theorem State.advanceTo_receiver (s : State) (due : Micros) : (s.advanceTo due).receiver = s.receiver := rfl
@[simp] theorem State.advanceTo_motion (s : State) (due : Micros) : (s.advanceTo due).motion = s.motion := rfl
@[simp] theorem State.advanceTo_portA (s : State) (due : Micros) : (s.advanceTo due).portA = s.portA := rfl
@[simp] theorem State.advanceTo_portB (s : State) (due : Micros) : (s.advanceTo due).portB = s.portB := rfl
@[simp] theorem State.advanceTo_shared (s : State) (due : Micros) : (s.advanceTo due).shared = s.shared := rfl
@[simp] theorem State.advanceTo_store (s : State) (due : Micros) : (s.advanceTo due).store = s.store := rfl
@[simp] theorem State.advanceWithin_pending (s : State) (dt limit : Micros) : (s.advanceWithin dt limit).pending = s.pending := rfl
@[simp] theorem State.advanceWithin_now (s : State) (dt limit : Micros) : (s.advanceWithin dt limit).now = min (s.now + dt) (max s.now limit) := rfl
@[simp] theorem State.advanceWithin_draws (s : State) (dt limit : Micros) : (s.advanceWithin dt limit).draws = s.draws := rfl
@[simp] theorem State.advanceWithin_bays (s : State) (dt limit : Micros) : (s.advanceWithin dt limit).bays = s.bays := rfl
@[simp] theorem State.advanceWithin_arbiter (s : State) (dt limit : Micros) : (s.advanceWithin dt limit).arbiter = s.arbiter := rfl
@[simp] theorem State.advanceWithin_receiver (s : State) (dt limit : Micros) : (s.advanceWithin dt limit).receiver = s.receiver := rfl
@[simp] theorem State.advanceWithin_motion (s : State) (dt limit : Micros) : (s.advanceWithin dt limit).motion = s.motion := rfl
@[simp] theorem State.advanceWithin_portA (s : State) (dt limit : Micros) : (s.advanceWithin dt limit).portA = s.portA := rfl
@[simp] theorem State.advanceWithin_portB (s : State) (dt limit : Micros) : (s.advanceWithin dt limit).portB = s.portB := rfl
@[simp] theorem State.advanceWithin_shared (s : State) (dt limit : Micros) : (s.advanceWithin dt limit).shared = s.shared := rfl
@[simp] theorem State.advanceWithin_store (s : State) (dt limit : Micros) : (s.advanceWithin dt limit).store = s.store := rfl
@[simp] theorem State.setBay_pending (s : State) (b : BayNo) (x : Bay) : (s.setBay b x).pending = s.pending := rfl
@[simp] theorem State.setBay_now (s : State) (b : BayNo) (x : Bay) : (s.setBay b x).now = s.now := rfl
@[simp] theorem State.setBay_draws (s : State) (b : BayNo) (x : Bay) : (s.setBay b x).draws = s.draws := rfl
@[simp] theorem State.setBay_bays (s : State) (b : BayNo) (x : Bay) : (s.setBay b x).bays = s.bays.set b x := rfl
@[simp] theorem State.setBay_arbiter (s : State) (b : BayNo) (x : Bay) : (s.setBay b x).arbiter = s.arbiter := rfl
@[simp] theorem State.setBay_receiver (s : State) (b : BayNo) (x : Bay) : (s.setBay b x).receiver = s.receiver := rfl
@[simp] theorem State.setBay_motion (s : State) (b : BayNo) (x : Bay) : (s.setBay b x).motion = s.motion := rfl
@[simp] theorem State.setBay_portA (s : State) (b : BayNo) (x : Bay) : (s.setBay b x).portA = s.portA := rfl
@[simp] theorem State.setBay_portB (s : State) (b : BayNo) (x : Bay) : (s.setBay b x).portB = s.portB := rfl
@[simp] theorem State.setBay_shared (s : State) (b : BayNo) (x : Bay) : (s.setBay b x).shared = s.shared := rfl
@[simp] theorem State.setBay_store (s : State) (b : BayNo) (x : Bay) : (s.setBay b x).store = s.store := rfl
@[simp] theorem State.withPending_pending (s : State) (q : List Instr) : (s.withPending q).pending = q := rfl
@[simp] theorem State.withPending_now (s : State) (q : List Instr) : (s.withPending q).now = s.now := rfl
@[simp] theorem State.withPending_draws (s : State) (q : List Instr) : (s.withPending q).draws = s.draws := rfl
@[simp] theorem State.withPending_bays (s : State) (q : List Instr) : (s.withPending q).bays = s.bays := rfl
@[simp] theorem State.withPending_arbiter (s : State) (q : List Instr) : (s.withPending q).arbiter = s.arbiter := rfl
@[simp] theorem State.withPending_receiver (s : State) (q : List Instr) : (s.withPending q).receiver = s.receiver := rfl
@[simp] theorem State.withPending_motion (s : State) (q : List Instr) : (s.withPending q).motion = s.motion := rfl
@[simp] theorem State.withPending_portA (s : State) (q : List Instr) : (s.withPending q).portA = s.portA := rfl
@[simp] theorem State.withPending_portB (s : State) (q : List Instr) : (s.withPending q).portB = s.portB := rfl
@[simp] theorem State.withPending_shared (s : State) (q : List Instr) : (s.withPending q).shared = s.shared := rfl
@[simp] theorem State.withPending_store (s : State) (q : List Instr) : (s.withPending q).store = s.store := rfl
@[simp] theorem State.oweEvaluation_pending (s : State) : (s.oweEvaluation).pending = s.pending := rfl
@[simp] theorem State.oweEvaluation_now (s : State) : (s.oweEvaluation).now = s.now := rfl
@[simp] theorem State.oweEvaluation_draws (s : State) : (s.oweEvaluation).draws = s.draws := rfl
@[simp] theorem State.oweEvaluation_bays (s : State) : (s.oweEvaluation).bays = s.bays := rfl
@[simp] theorem State.oweEvaluation_arbiter (s : State) : (s.oweEvaluation).arbiter = { s.arbiter with evalOwed := true } := rfl
@[simp] theorem State.oweEvaluation_receiver (s : State) : (s.oweEvaluation).receiver = s.receiver := rfl
@[simp] theorem State.oweEvaluation_motion (s : State) : (s.oweEvaluation).motion = s.motion := rfl
@[simp] theorem State.oweEvaluation_portA (s : State) : (s.oweEvaluation).portA = s.portA := rfl
@[simp] theorem State.oweEvaluation_portB (s : State) : (s.oweEvaluation).portB = s.portB := rfl
@[simp] theorem State.oweEvaluation_shared (s : State) : (s.oweEvaluation).shared = s.shared := rfl
@[simp] theorem State.oweEvaluation_store (s : State) : (s.oweEvaluation).store = s.store := rfl
@[simp] theorem State.takeLimit_pending (s : State) : (s.takeLimit).pending = s.pending := rfl
@[simp] theorem State.takeLimit_now (s : State) : (s.takeLimit).now = s.now := rfl
@[simp] theorem State.takeLimit_draws (s : State) : (s.takeLimit).draws = s.draws := rfl
@[simp] theorem State.takeLimit_bays (s : State) : (s.takeLimit).bays = s.bays := rfl
@[simp] theorem State.takeLimit_arbiter (s : State) : (s.takeLimit).arbiter = { s.arbiter with limit := s.caseSettings.limitFor s.arbiter.battery } := rfl
@[simp] theorem State.takeLimit_receiver (s : State) : (s.takeLimit).receiver = s.receiver := rfl
@[simp] theorem State.takeLimit_motion (s : State) : (s.takeLimit).motion = s.motion := rfl
@[simp] theorem State.takeLimit_portA (s : State) : (s.takeLimit).portA = s.portA := rfl
@[simp] theorem State.takeLimit_portB (s : State) : (s.takeLimit).portB = s.portB := rfl
@[simp] theorem State.takeLimit_shared (s : State) : (s.takeLimit).shared = s.shared := rfl
@[simp] theorem State.takeLimit_store (s : State) : (s.takeLimit).store = s.store := rfl
@[simp] theorem State.noteGrant_pending (s : State) : (s.noteGrant).pending = s.pending := rfl
@[simp] theorem State.noteGrant_now (s : State) : (s.noteGrant).now = s.now := rfl
@[simp] theorem State.noteGrant_draws (s : State) : (s.noteGrant).draws = s.draws := rfl
@[simp] theorem State.noteGrant_bays (s : State) : (s.noteGrant).bays = s.bays := rfl
@[simp] theorem State.noteGrant_receiver (s : State) : (s.noteGrant).receiver = s.receiver := rfl
@[simp] theorem State.noteGrant_motion (s : State) : (s.noteGrant).motion = s.motion := rfl
@[simp] theorem State.noteGrant_portA (s : State) : (s.noteGrant).portA = s.portA := rfl
@[simp] theorem State.noteGrant_portB (s : State) : (s.noteGrant).portB = s.portB := rfl
@[simp] theorem State.noteGrant_shared (s : State) : (s.noteGrant).shared = s.shared := rfl
@[simp] theorem State.noteGrant_store (s : State) : (s.noteGrant).store = s.store := rfl
@[simp] theorem State.takeReload_pending (s : State) : (s.takeReload).pending = s.pending := rfl
@[simp] theorem State.takeReload_now (s : State) : (s.takeReload).now = s.now := rfl
@[simp] theorem State.takeReload_draws (s : State) : (s.takeReload).draws = s.draws := rfl
@[simp] theorem State.takeReload_bays (s : State) : (s.takeReload).bays = s.bays := rfl
@[simp] theorem State.takeReload_receiver (s : State) : (s.takeReload).receiver = s.receiver := rfl
@[simp] theorem State.takeReload_motion (s : State) : (s.takeReload).motion = s.motion := rfl
@[simp] theorem State.takeReload_portA (s : State) : (s.takeReload).portA = s.portA := rfl
@[simp] theorem State.takeReload_portB (s : State) : (s.takeReload).portB = s.portB := rfl
@[simp] theorem State.takeReload_shared (s : State) : (s.takeReload).shared = s.shared := rfl
@[simp] theorem State.takeReload_store (s : State) : (s.takeReload).store = s.store := rfl
@[simp] theorem State.editReceiver_pending (f : Receiver → Receiver) (s : State) : (s.editReceiver f).pending = s.pending := rfl
@[simp] theorem State.editReceiver_now (f : Receiver → Receiver) (s : State) : (s.editReceiver f).now = s.now := rfl
@[simp] theorem State.editReceiver_draws (f : Receiver → Receiver) (s : State) : (s.editReceiver f).draws = s.draws := rfl
@[simp] theorem State.editReceiver_bays (f : Receiver → Receiver) (s : State) : (s.editReceiver f).bays = s.bays := rfl
@[simp] theorem State.editReceiver_arbiter (f : Receiver → Receiver) (s : State) : (s.editReceiver f).arbiter = s.arbiter := rfl
@[simp] theorem State.editReceiver_receiver (f : Receiver → Receiver) (s : State) : (s.editReceiver f).receiver = f s.receiver := rfl
@[simp] theorem State.editReceiver_motion (f : Receiver → Receiver) (s : State) : (s.editReceiver f).motion = s.motion := rfl
@[simp] theorem State.editReceiver_portA (f : Receiver → Receiver) (s : State) : (s.editReceiver f).portA = s.portA := rfl
@[simp] theorem State.editReceiver_portB (f : Receiver → Receiver) (s : State) : (s.editReceiver f).portB = s.portB := rfl
@[simp] theorem State.editReceiver_shared (f : Receiver → Receiver) (s : State) : (s.editReceiver f).shared = s.shared := rfl
@[simp] theorem State.editReceiver_store (f : Receiver → Receiver) (s : State) : (s.editReceiver f).store = s.store := rfl
@[simp] theorem State.setPort_pending (s : State) (p : Port) (u : PortUnit) : (s.setPort p u).pending = s.pending := by cases p <;> rfl
@[simp] theorem State.setPort_now (s : State) (p : Port) (u : PortUnit) : (s.setPort p u).now = s.now := by cases p <;> rfl
@[simp] theorem State.setPort_draws (s : State) (p : Port) (u : PortUnit) : (s.setPort p u).draws = s.draws := by cases p <;> rfl
@[simp] theorem State.setPort_bays (s : State) (p : Port) (u : PortUnit) : (s.setPort p u).bays = s.bays := by cases p <;> rfl
@[simp] theorem State.setPort_arbiter (s : State) (p : Port) (u : PortUnit) : (s.setPort p u).arbiter = s.arbiter := by cases p <;> rfl
@[simp] theorem State.setPort_receiver (s : State) (p : Port) (u : PortUnit) : (s.setPort p u).receiver = s.receiver := by cases p <;> rfl
@[simp] theorem State.setPort_motion (s : State) (p : Port) (u : PortUnit) : (s.setPort p u).motion = s.motion := by cases p <;> rfl
@[simp] theorem State.setPort_shared (s : State) (p : Port) (u : PortUnit) : (s.setPort p u).shared = s.shared := by cases p <;> rfl
@[simp] theorem State.setPort_store (s : State) (p : Port) (u : PortUnit) : (s.setPort p u).store = s.store := by cases p <;> rfl

@[simp] theorem State.port_setPort (s : State) (p : Port) (u : PortUnit) : (s.setPort p u).port p = u := by
  cases p <;> rfl

@[simp] theorem State.port_setPort_peer (s : State) (p : Port) (u : PortUnit) :
    (s.setPort p u).port p.peer = s.port p.peer := by
  cases p <;> rfl

@[simp] theorem State.port_peer_setPort_peer (s : State) (p : Port) (u : PortUnit) :
    (s.setPort p.peer u).port p = s.port p := by
  cases p <;> rfl

@[simp] theorem State.bay_setBay (s : State) (b : BayNo) (x : Bay) : (s.setBay b x).bay b = x :=
  Eight.get_set s.bays b x

@[simp] theorem State.bay_setBay_of_ne (s : State) (b c : BayNo) (x : Bay) (h : c ≠ b) :
    (s.setBay b x).bay c = s.bay c :=
  Eight.get_set_of_ne s.bays x h

@[simp] theorem State.bay_advance (s : State) (dt : Micros) (b : BayNo) : (s.advance dt).bay b = s.bay b := rfl
@[simp] theorem State.port_advance (s : State) (dt : Micros) (p : Port) : (s.advance dt).port p = s.port p := by cases p <;> rfl
@[simp] theorem State.bay_advanceTo (s : State) (due : Micros) (b : BayNo) : (s.advanceTo due).bay b = s.bay b := rfl
@[simp] theorem State.port_advanceTo (s : State) (due : Micros) (p : Port) : (s.advanceTo due).port p = s.port p := by cases p <;> rfl
@[simp] theorem State.bay_advanceWithin (s : State) (dt limit : Micros) (b : BayNo) : (s.advanceWithin dt limit).bay b = s.bay b := rfl
@[simp] theorem State.port_advanceWithin (s : State) (dt limit : Micros) (p : Port) : (s.advanceWithin dt limit).port p = s.port p := by cases p <;> rfl
@[simp] theorem State.bay_withPending (s : State) (q : List Instr) (b : BayNo) : (s.withPending q).bay b = s.bay b := rfl
@[simp] theorem State.port_withPending (s : State) (q : List Instr) (p : Port) : (s.withPending q).port p = s.port p := by cases p <;> rfl
@[simp] theorem State.bay_oweEvaluation (s : State) (b : BayNo) : (s.oweEvaluation).bay b = s.bay b := rfl
@[simp] theorem State.port_oweEvaluation (s : State) (p : Port) : (s.oweEvaluation).port p = s.port p := by cases p <;> rfl
@[simp] theorem State.bay_takeLimit (s : State) (b : BayNo) : (s.takeLimit).bay b = s.bay b := rfl
@[simp] theorem State.port_takeLimit (s : State) (p : Port) : (s.takeLimit).port p = s.port p := by cases p <;> rfl
@[simp] theorem State.bay_noteGrant (s : State) (b : BayNo) : (s.noteGrant).bay b = s.bay b := rfl
@[simp] theorem State.port_noteGrant (s : State) (p : Port) : (s.noteGrant).port p = s.port p := by cases p <;> rfl
@[simp] theorem State.bay_takeReload (s : State) (b : BayNo) : (s.takeReload).bay b = s.bay b := rfl
@[simp] theorem State.port_takeReload (s : State) (p : Port) : (s.takeReload).port p = s.port p := by cases p <;> rfl
@[simp] theorem State.bay_editReceiver (f : Receiver → Receiver) (s : State) (b : BayNo) : (s.editReceiver f).bay b = s.bay b := rfl
@[simp] theorem State.port_editReceiver (f : Receiver → Receiver) (s : State) (p : Port) : (s.editReceiver f).port p = s.port p := by cases p <;> rfl
@[simp] theorem State.bay_setPort (s : State) (p : Port) (u : PortUnit) (b : BayNo) : (s.setPort p u).bay b = s.bay b := by cases p <;> rfl
@[simp] theorem State.port_setBay (s : State) (b : BayNo) (x : Bay) (p : Port) : (s.setBay b x).port p = s.port p := by cases p <;> rfl

/-! ### Bay -/

@[simp] theorem Bay.entering_prs (c : Ctx) (st : BayState) (x : Bay) : (x.entering c st).prs = x.prs := rfl
@[simp] theorem Bay.entering_ejc (c : Ctx) (st : BayState) (x : Bay) : (x.entering c st).ejc = x.ejc := rfl
@[simp] theorem Bay.entering_flt (c : Ctx) (st : BayState) (x : Bay) : (x.entering c st).flt = x.flt := rfl
@[simp] theorem Bay.entering_prk (c : Ctx) (st : BayState) (x : Bay) : (x.entering c st).prk = x.prk := rfl
@[simp] theorem Bay.entering_idx (c : Ctx) (st : BayState) (x : Bay) : (x.entering c st).idx = x.idx := rfl
@[simp] theorem Bay.entering_present (c : Ctx) (st : BayState) (x : Bay) : (x.entering c st).present = x.present := rfl
@[simp] theorem Bay.entering_prsTimer (c : Ctx) (st : BayState) (x : Bay) : (x.entering c st).prsTimer = x.prsTimer := rfl
@[simp] theorem Bay.entering_ejectorOpen (c : Ctx) (st : BayState) (x : Bay) : (x.entering c st).ejectorOpen = x.ejectorOpen := rfl
@[simp] theorem Bay.entering_ejcTimer (c : Ctx) (st : BayState) (x : Bay) : (x.entering c st).ejcTimer = x.ejcTimer := rfl
@[simp] theorem Bay.entering_fltOn (c : Ctx) (st : BayState) (x : Bay) : (x.entering c st).fltOn = x.fltOn := rfl
@[simp] theorem Bay.entering_fltTimer (c : Ctx) (st : BayState) (x : Bay) : (x.entering c st).fltTimer = x.fltTimer := rfl
@[simp] theorem Bay.entering_prkOn (c : Ctx) (st : BayState) (x : Bay) : (x.entering c st).prkOn = x.prkOn := rfl
@[simp] theorem Bay.entering_prkTimer (c : Ctx) (st : BayState) (x : Bay) : (x.entering c st).prkTimer = x.prkTimer := rfl
@[simp] theorem Bay.entering_state (c : Ctx) (st : BayState) (x : Bay) : (x.entering c st).state = st := rfl
@[simp] theorem Bay.entering_since (c : Ctx) (st : BayState) (x : Bay) : (x.entering c st).since = c.now := rfl
@[simp] theorem Bay.entering_demandA (c : Ctx) (st : BayState) (x : Bay) : (x.entering c st).demandA = x.demandA := rfl
@[simp] theorem Bay.entering_demandB (c : Ctx) (st : BayState) (x : Bay) : (x.entering c st).demandB = x.demandB := rfl
@[simp] theorem Bay.entering_flagA (c : Ctx) (st : BayState) (x : Bay) : (x.entering c st).flagA = (x.flagA && decide (x.state ≠ .released)) := rfl
@[simp] theorem Bay.entering_flagB (c : Ctx) (st : BayState) (x : Bay) : (x.entering c st).flagB = (x.flagB && decide (x.state ≠ .released)) := rfl
@[simp] theorem Bay.entering_snapshot (c : Ctx) (st : BayState) (x : Bay) : (x.entering c st).snapshot = x.snapshot := rfl
@[simp] theorem Bay.entering_tries (c : Ctx) (st : BayState) (x : Bay) : (x.entering c st).tries = x.tries := rfl
@[simp] theorem Bay.entering_retry (c : Ctx) (st : BayState) (x : Bay) : (x.entering c st).retry = x.retry := rfl
@[simp] theorem Bay.entering_lastPeriod (c : Ctx) (st : BayState) (x : Bay) : (x.entering c st).lastPeriod = x.lastPeriod := rfl
@[simp] theorem Bay.entering_inRun (c : Ctx) (st : BayState) (x : Bay) : (x.entering c st).inRun = x.inRun := rfl
@[simp] theorem Bay.entering_outRun (c : Ctx) (st : BayState) (x : Bay) : (x.entering c st).outRun = x.outRun := rfl
@[simp] theorem Bay.entering_lastPark (c : Ctx) (st : BayState) (x : Bay) : (x.entering c st).lastPark = x.lastPark := rfl
@[simp] theorem Bay.entering_fault (c : Ctx) (st : BayState) (x : Bay) : (x.entering c st).fault = none := rfl
@[simp] theorem Bay.entering_cause (c : Ctx) (st : BayState) (x : Bay) : (x.entering c st).cause = none := rfl
@[simp] theorem Bay.entering_restMark (c : Ctx) (st : BayState) (x : Bay) : (x.entering c st).restMark = x.restMark := rfl
@[simp] theorem Bay.entering_spinupTimer (c : Ctx) (st : BayState) (x : Bay) : (x.entering c st).spinupTimer = none := rfl
@[simp] theorem Bay.entering_spindownTimer (c : Ctx) (st : BayState) (x : Bay) : (x.entering c st).spindownTimer = none := rfl
@[simp] theorem Bay.entering_spindownHeld (c : Ctx) (st : BayState) (x : Bay) : (x.entering c st).spindownHeld = false := rfl
@[simp] theorem Bay.entering_unloadWatch (c : Ctx) (st : BayState) (x : Bay) : (x.entering c st).unloadWatch = none := rfl
@[simp] theorem Bay.entering_dwellTimer (c : Ctx) (st : BayState) (x : Bay) : (x.entering c st).dwellTimer = none := rfl
@[simp] theorem Bay.entering_phase (c : Ctx) (st : BayState) (x : Bay) : (x.entering c st).phase = none := rfl
@[simp] theorem Bay.entering_headTimer (c : Ctx) (st : BayState) (x : Bay) : (x.entering c st).headTimer = none := rfl
@[simp] theorem Bay.entering_pulseTimer (c : Ctx) (st : BayState) (x : Bay) : (x.entering c st).pulseTimer = none := rfl
@[simp] theorem Bay.entering_spin (c : Ctx) (st : BayState) (x : Bay) : (x.entering c st).spin = x.spin := rfl
@[simp] theorem Bay.entering_hld (c : Ctx) (st : BayState) (x : Bay) : (x.entering c st).hld = false := rfl
@[simp] theorem Bay.entering_rtr (c : Ctx) (st : BayState) (x : Bay) : (x.entering c st).rtr = false := rfl
@[simp] theorem Bay.entering_led (c : Ctx) (st : BayState) (x : Bay) : (x.entering c st).led = x.led := rfl
@[simp] theorem Bay.entering_ledPattern (c : Ctx) (st : BayState) (x : Bay) : (x.entering c st).ledPattern = x.ledPattern := rfl
@[simp] theorem Bay.entering_ledTimer (c : Ctx) (st : BayState) (x : Bay) : (x.entering c st).ledTimer = x.ledTimer := rfl
@[simp] theorem Bay.entering_reference (c : Ctx) (st : BayState) (x : Bay) : (x.entering c st).reference = x.reference := rfl
@[simp] theorem Bay.entering_absenceTimer (c : Ctx) (st : BayState) (x : Bay) : (x.entering c st).absenceTimer = x.absenceTimer := rfl
@[simp] theorem Bay.entering_quietTimer (c : Ctx) (st : BayState) (x : Bay) : (x.entering c st).quietTimer = x.quietTimer := rfl
@[simp] theorem Bay.entering_quietElapsed (c : Ctx) (st : BayState) (x : Bay) : (x.entering c st).quietElapsed = x.quietElapsed := rfl
@[simp] theorem Bay.park_prs (c : Ctx) (x : Bay) : (x.park c).prs = x.prs := rfl
@[simp] theorem Bay.park_ejc (c : Ctx) (x : Bay) : (x.park c).ejc = x.ejc := rfl
@[simp] theorem Bay.park_flt (c : Ctx) (x : Bay) : (x.park c).flt = x.flt := rfl
@[simp] theorem Bay.park_prk (c : Ctx) (x : Bay) : (x.park c).prk = x.prk := rfl
@[simp] theorem Bay.park_idx (c : Ctx) (x : Bay) : (x.park c).idx = x.idx := rfl
@[simp] theorem Bay.park_present (c : Ctx) (x : Bay) : (x.park c).present = x.present := rfl
@[simp] theorem Bay.park_prsTimer (c : Ctx) (x : Bay) : (x.park c).prsTimer = x.prsTimer := rfl
@[simp] theorem Bay.park_ejectorOpen (c : Ctx) (x : Bay) : (x.park c).ejectorOpen = x.ejectorOpen := rfl
@[simp] theorem Bay.park_ejcTimer (c : Ctx) (x : Bay) : (x.park c).ejcTimer = x.ejcTimer := rfl
@[simp] theorem Bay.park_fltOn (c : Ctx) (x : Bay) : (x.park c).fltOn = x.fltOn := rfl
@[simp] theorem Bay.park_fltTimer (c : Ctx) (x : Bay) : (x.park c).fltTimer = x.fltTimer := rfl
@[simp] theorem Bay.park_prkOn (c : Ctx) (x : Bay) : (x.park c).prkOn = x.prkOn := rfl
@[simp] theorem Bay.park_prkTimer (c : Ctx) (x : Bay) : (x.park c).prkTimer = x.prkTimer := rfl
@[simp] theorem Bay.park_state (c : Ctx) (x : Bay) : (x.park c).state = x.state := rfl
@[simp] theorem Bay.park_since (c : Ctx) (x : Bay) : (x.park c).since = x.since := rfl
@[simp] theorem Bay.park_demandA (c : Ctx) (x : Bay) : (x.park c).demandA = x.demandA := rfl
@[simp] theorem Bay.park_demandB (c : Ctx) (x : Bay) : (x.park c).demandB = x.demandB := rfl
@[simp] theorem Bay.park_flagA (c : Ctx) (x : Bay) : (x.park c).flagA = x.flagA := rfl
@[simp] theorem Bay.park_flagB (c : Ctx) (x : Bay) : (x.park c).flagB = x.flagB := rfl
@[simp] theorem Bay.park_snapshot (c : Ctx) (x : Bay) : (x.park c).snapshot = x.snapshot := rfl
@[simp] theorem Bay.park_tries (c : Ctx) (x : Bay) : (x.park c).tries = x.tries := rfl
@[simp] theorem Bay.park_retry (c : Ctx) (x : Bay) : (x.park c).retry = x.retry := rfl
@[simp] theorem Bay.park_lastPeriod (c : Ctx) (x : Bay) : (x.park c).lastPeriod = x.lastPeriod := rfl
@[simp] theorem Bay.park_inRun (c : Ctx) (x : Bay) : (x.park c).inRun = x.inRun := rfl
@[simp] theorem Bay.park_outRun (c : Ctx) (x : Bay) : (x.park c).outRun = x.outRun := rfl
@[simp] theorem Bay.park_lastPark (c : Ctx) (x : Bay) : (x.park c).lastPark = some (millis c.now) := rfl
@[simp] theorem Bay.park_fault (c : Ctx) (x : Bay) : (x.park c).fault = x.fault := rfl
@[simp] theorem Bay.park_cause (c : Ctx) (x : Bay) : (x.park c).cause = x.cause := rfl
@[simp] theorem Bay.park_restMark (c : Ctx) (x : Bay) : (x.park c).restMark = x.restMark := rfl
@[simp] theorem Bay.park_spinupTimer (c : Ctx) (x : Bay) : (x.park c).spinupTimer = x.spinupTimer := rfl
@[simp] theorem Bay.park_spindownTimer (c : Ctx) (x : Bay) : (x.park c).spindownTimer = x.spindownTimer := rfl
@[simp] theorem Bay.park_spindownHeld (c : Ctx) (x : Bay) : (x.park c).spindownHeld = x.spindownHeld := rfl
@[simp] theorem Bay.park_unloadWatch (c : Ctx) (x : Bay) : (x.park c).unloadWatch = x.unloadWatch := rfl
@[simp] theorem Bay.park_dwellTimer (c : Ctx) (x : Bay) : (x.park c).dwellTimer = x.dwellTimer := rfl
@[simp] theorem Bay.park_phase (c : Ctx) (x : Bay) : (x.park c).phase = x.phase := rfl
@[simp] theorem Bay.park_headTimer (c : Ctx) (x : Bay) : (x.park c).headTimer = x.headTimer := rfl
@[simp] theorem Bay.park_pulseTimer (c : Ctx) (x : Bay) : (x.park c).pulseTimer = x.pulseTimer := rfl
@[simp] theorem Bay.park_spin (c : Ctx) (x : Bay) : (x.park c).spin = x.spin := rfl
@[simp] theorem Bay.park_hld (c : Ctx) (x : Bay) : (x.park c).hld = x.hld := rfl
@[simp] theorem Bay.park_rtr (c : Ctx) (x : Bay) : (x.park c).rtr = x.rtr := rfl
@[simp] theorem Bay.park_led (c : Ctx) (x : Bay) : (x.park c).led = x.led := rfl
@[simp] theorem Bay.park_ledPattern (c : Ctx) (x : Bay) : (x.park c).ledPattern = x.ledPattern := rfl
@[simp] theorem Bay.park_ledTimer (c : Ctx) (x : Bay) : (x.park c).ledTimer = x.ledTimer := rfl
@[simp] theorem Bay.park_reference (c : Ctx) (x : Bay) : (x.park c).reference = x.reference := rfl
@[simp] theorem Bay.park_absenceTimer (c : Ctx) (x : Bay) : (x.park c).absenceTimer = x.absenceTimer := rfl
@[simp] theorem Bay.park_quietTimer (c : Ctx) (x : Bay) : (x.park c).quietTimer = x.quietTimer := rfl
@[simp] theorem Bay.park_quietElapsed (c : Ctx) (x : Bay) : (x.park c).quietElapsed = x.quietElapsed := rfl
@[simp] theorem Bay.clearRetry_prs (x : Bay) : (x.clearRetry).prs = x.prs := rfl
@[simp] theorem Bay.clearRetry_ejc (x : Bay) : (x.clearRetry).ejc = x.ejc := rfl
@[simp] theorem Bay.clearRetry_flt (x : Bay) : (x.clearRetry).flt = x.flt := rfl
@[simp] theorem Bay.clearRetry_prk (x : Bay) : (x.clearRetry).prk = x.prk := rfl
@[simp] theorem Bay.clearRetry_idx (x : Bay) : (x.clearRetry).idx = x.idx := rfl
@[simp] theorem Bay.clearRetry_present (x : Bay) : (x.clearRetry).present = x.present := rfl
@[simp] theorem Bay.clearRetry_prsTimer (x : Bay) : (x.clearRetry).prsTimer = x.prsTimer := rfl
@[simp] theorem Bay.clearRetry_ejectorOpen (x : Bay) : (x.clearRetry).ejectorOpen = x.ejectorOpen := rfl
@[simp] theorem Bay.clearRetry_ejcTimer (x : Bay) : (x.clearRetry).ejcTimer = x.ejcTimer := rfl
@[simp] theorem Bay.clearRetry_fltOn (x : Bay) : (x.clearRetry).fltOn = x.fltOn := rfl
@[simp] theorem Bay.clearRetry_fltTimer (x : Bay) : (x.clearRetry).fltTimer = x.fltTimer := rfl
@[simp] theorem Bay.clearRetry_prkOn (x : Bay) : (x.clearRetry).prkOn = x.prkOn := rfl
@[simp] theorem Bay.clearRetry_prkTimer (x : Bay) : (x.clearRetry).prkTimer = x.prkTimer := rfl
@[simp] theorem Bay.clearRetry_state (x : Bay) : (x.clearRetry).state = x.state := rfl
@[simp] theorem Bay.clearRetry_since (x : Bay) : (x.clearRetry).since = x.since := rfl
@[simp] theorem Bay.clearRetry_demandA (x : Bay) : (x.clearRetry).demandA = x.demandA := rfl
@[simp] theorem Bay.clearRetry_demandB (x : Bay) : (x.clearRetry).demandB = x.demandB := rfl
@[simp] theorem Bay.clearRetry_flagA (x : Bay) : (x.clearRetry).flagA = x.flagA := rfl
@[simp] theorem Bay.clearRetry_flagB (x : Bay) : (x.clearRetry).flagB = x.flagB := rfl
@[simp] theorem Bay.clearRetry_snapshot (x : Bay) : (x.clearRetry).snapshot = x.snapshot := rfl
@[simp] theorem Bay.clearRetry_tries (x : Bay) : (x.clearRetry).tries = x.tries := rfl
@[simp] theorem Bay.clearRetry_retry (x : Bay) : (x.clearRetry).retry = false := rfl
@[simp] theorem Bay.clearRetry_lastPeriod (x : Bay) : (x.clearRetry).lastPeriod = x.lastPeriod := rfl
@[simp] theorem Bay.clearRetry_inRun (x : Bay) : (x.clearRetry).inRun = x.inRun := rfl
@[simp] theorem Bay.clearRetry_outRun (x : Bay) : (x.clearRetry).outRun = x.outRun := rfl
@[simp] theorem Bay.clearRetry_lastPark (x : Bay) : (x.clearRetry).lastPark = x.lastPark := rfl
@[simp] theorem Bay.clearRetry_fault (x : Bay) : (x.clearRetry).fault = x.fault := rfl
@[simp] theorem Bay.clearRetry_cause (x : Bay) : (x.clearRetry).cause = x.cause := rfl
@[simp] theorem Bay.clearRetry_restMark (x : Bay) : (x.clearRetry).restMark = x.restMark := rfl
@[simp] theorem Bay.clearRetry_spinupTimer (x : Bay) : (x.clearRetry).spinupTimer = x.spinupTimer := rfl
@[simp] theorem Bay.clearRetry_spindownTimer (x : Bay) : (x.clearRetry).spindownTimer = x.spindownTimer := rfl
@[simp] theorem Bay.clearRetry_spindownHeld (x : Bay) : (x.clearRetry).spindownHeld = x.spindownHeld := rfl
@[simp] theorem Bay.clearRetry_unloadWatch (x : Bay) : (x.clearRetry).unloadWatch = x.unloadWatch := rfl
@[simp] theorem Bay.clearRetry_dwellTimer (x : Bay) : (x.clearRetry).dwellTimer = x.dwellTimer := rfl
@[simp] theorem Bay.clearRetry_phase (x : Bay) : (x.clearRetry).phase = x.phase := rfl
@[simp] theorem Bay.clearRetry_headTimer (x : Bay) : (x.clearRetry).headTimer = x.headTimer := rfl
@[simp] theorem Bay.clearRetry_pulseTimer (x : Bay) : (x.clearRetry).pulseTimer = x.pulseTimer := rfl
@[simp] theorem Bay.clearRetry_spin (x : Bay) : (x.clearRetry).spin = x.spin := rfl
@[simp] theorem Bay.clearRetry_hld (x : Bay) : (x.clearRetry).hld = x.hld := rfl
@[simp] theorem Bay.clearRetry_rtr (x : Bay) : (x.clearRetry).rtr = x.rtr := rfl
@[simp] theorem Bay.clearRetry_led (x : Bay) : (x.clearRetry).led = x.led := rfl
@[simp] theorem Bay.clearRetry_ledPattern (x : Bay) : (x.clearRetry).ledPattern = x.ledPattern := rfl
@[simp] theorem Bay.clearRetry_ledTimer (x : Bay) : (x.clearRetry).ledTimer = x.ledTimer := rfl
@[simp] theorem Bay.clearRetry_reference (x : Bay) : (x.clearRetry).reference = x.reference := rfl
@[simp] theorem Bay.clearRetry_absenceTimer (x : Bay) : (x.clearRetry).absenceTimer = x.absenceTimer := rfl
@[simp] theorem Bay.clearRetry_quietTimer (x : Bay) : (x.clearRetry).quietTimer = x.quietTimer := rfl
@[simp] theorem Bay.clearRetry_quietElapsed (x : Bay) : (x.clearRetry).quietElapsed = x.quietElapsed := rfl
@[simp] theorem Bay.restIfQuiet_prs (x : Bay) : (x.restIfQuiet).prs = x.prs := rfl
@[simp] theorem Bay.restIfQuiet_ejc (x : Bay) : (x.restIfQuiet).ejc = x.ejc := rfl
@[simp] theorem Bay.restIfQuiet_flt (x : Bay) : (x.restIfQuiet).flt = x.flt := rfl
@[simp] theorem Bay.restIfQuiet_prk (x : Bay) : (x.restIfQuiet).prk = x.prk := rfl
@[simp] theorem Bay.restIfQuiet_idx (x : Bay) : (x.restIfQuiet).idx = x.idx := rfl
@[simp] theorem Bay.restIfQuiet_present (x : Bay) : (x.restIfQuiet).present = x.present := rfl
@[simp] theorem Bay.restIfQuiet_prsTimer (x : Bay) : (x.restIfQuiet).prsTimer = x.prsTimer := rfl
@[simp] theorem Bay.restIfQuiet_ejectorOpen (x : Bay) : (x.restIfQuiet).ejectorOpen = x.ejectorOpen := rfl
@[simp] theorem Bay.restIfQuiet_ejcTimer (x : Bay) : (x.restIfQuiet).ejcTimer = x.ejcTimer := rfl
@[simp] theorem Bay.restIfQuiet_fltOn (x : Bay) : (x.restIfQuiet).fltOn = x.fltOn := rfl
@[simp] theorem Bay.restIfQuiet_fltTimer (x : Bay) : (x.restIfQuiet).fltTimer = x.fltTimer := rfl
@[simp] theorem Bay.restIfQuiet_prkOn (x : Bay) : (x.restIfQuiet).prkOn = x.prkOn := rfl
@[simp] theorem Bay.restIfQuiet_prkTimer (x : Bay) : (x.restIfQuiet).prkTimer = x.prkTimer := rfl
@[simp] theorem Bay.restIfQuiet_state (x : Bay) : (x.restIfQuiet).state = x.state := rfl
@[simp] theorem Bay.restIfQuiet_since (x : Bay) : (x.restIfQuiet).since = x.since := rfl
@[simp] theorem Bay.restIfQuiet_demandA (x : Bay) : (x.restIfQuiet).demandA = x.demandA := rfl
@[simp] theorem Bay.restIfQuiet_demandB (x : Bay) : (x.restIfQuiet).demandB = x.demandB := rfl
@[simp] theorem Bay.restIfQuiet_flagA (x : Bay) : (x.restIfQuiet).flagA = x.flagA := rfl
@[simp] theorem Bay.restIfQuiet_flagB (x : Bay) : (x.restIfQuiet).flagB = x.flagB := rfl
@[simp] theorem Bay.restIfQuiet_snapshot (x : Bay) : (x.restIfQuiet).snapshot = x.snapshot := rfl
@[simp] theorem Bay.restIfQuiet_tries (x : Bay) : (x.restIfQuiet).tries = x.tries := rfl
@[simp] theorem Bay.restIfQuiet_retry (x : Bay) : (x.restIfQuiet).retry = x.retry := rfl
@[simp] theorem Bay.restIfQuiet_lastPeriod (x : Bay) : (x.restIfQuiet).lastPeriod = x.lastPeriod := rfl
@[simp] theorem Bay.restIfQuiet_inRun (x : Bay) : (x.restIfQuiet).inRun = x.inRun := rfl
@[simp] theorem Bay.restIfQuiet_outRun (x : Bay) : (x.restIfQuiet).outRun = x.outRun := rfl
@[simp] theorem Bay.restIfQuiet_lastPark (x : Bay) : (x.restIfQuiet).lastPark = x.lastPark := rfl
@[simp] theorem Bay.restIfQuiet_fault (x : Bay) : (x.restIfQuiet).fault = x.fault := rfl
@[simp] theorem Bay.restIfQuiet_cause (x : Bay) : (x.restIfQuiet).cause = x.cause := rfl
@[simp] theorem Bay.restIfQuiet_restMark (x : Bay) : (x.restIfQuiet).restMark = (x.restMark || (!x.spin && x.quietElapsed)) := rfl
@[simp] theorem Bay.restIfQuiet_spinupTimer (x : Bay) : (x.restIfQuiet).spinupTimer = x.spinupTimer := rfl
@[simp] theorem Bay.restIfQuiet_spindownTimer (x : Bay) : (x.restIfQuiet).spindownTimer = x.spindownTimer := rfl
@[simp] theorem Bay.restIfQuiet_spindownHeld (x : Bay) : (x.restIfQuiet).spindownHeld = x.spindownHeld := rfl
@[simp] theorem Bay.restIfQuiet_unloadWatch (x : Bay) : (x.restIfQuiet).unloadWatch = x.unloadWatch := rfl
@[simp] theorem Bay.restIfQuiet_dwellTimer (x : Bay) : (x.restIfQuiet).dwellTimer = x.dwellTimer := rfl
@[simp] theorem Bay.restIfQuiet_phase (x : Bay) : (x.restIfQuiet).phase = x.phase := rfl
@[simp] theorem Bay.restIfQuiet_headTimer (x : Bay) : (x.restIfQuiet).headTimer = x.headTimer := rfl
@[simp] theorem Bay.restIfQuiet_pulseTimer (x : Bay) : (x.restIfQuiet).pulseTimer = x.pulseTimer := rfl
@[simp] theorem Bay.restIfQuiet_spin (x : Bay) : (x.restIfQuiet).spin = x.spin := rfl
@[simp] theorem Bay.restIfQuiet_hld (x : Bay) : (x.restIfQuiet).hld = x.hld := rfl
@[simp] theorem Bay.restIfQuiet_rtr (x : Bay) : (x.restIfQuiet).rtr = x.rtr := rfl
@[simp] theorem Bay.restIfQuiet_led (x : Bay) : (x.restIfQuiet).led = x.led := rfl
@[simp] theorem Bay.restIfQuiet_ledPattern (x : Bay) : (x.restIfQuiet).ledPattern = x.ledPattern := rfl
@[simp] theorem Bay.restIfQuiet_ledTimer (x : Bay) : (x.restIfQuiet).ledTimer = x.ledTimer := rfl
@[simp] theorem Bay.restIfQuiet_reference (x : Bay) : (x.restIfQuiet).reference = x.reference := rfl
@[simp] theorem Bay.restIfQuiet_absenceTimer (x : Bay) : (x.restIfQuiet).absenceTimer = x.absenceTimer := rfl
@[simp] theorem Bay.restIfQuiet_quietTimer (x : Bay) : (x.restIfQuiet).quietTimer = x.quietTimer := rfl
@[simp] theorem Bay.restIfQuiet_quietElapsed (x : Bay) : (x.restIfQuiet).quietElapsed = x.quietElapsed := rfl
@[simp] theorem Bay.startSpindown_prs (c : Ctx) (mayWatch : Bool) (x : Bay) : (x.startSpindown c mayWatch).prs = x.prs := rfl
@[simp] theorem Bay.startSpindown_ejc (c : Ctx) (mayWatch : Bool) (x : Bay) : (x.startSpindown c mayWatch).ejc = x.ejc := rfl
@[simp] theorem Bay.startSpindown_flt (c : Ctx) (mayWatch : Bool) (x : Bay) : (x.startSpindown c mayWatch).flt = x.flt := rfl
@[simp] theorem Bay.startSpindown_prk (c : Ctx) (mayWatch : Bool) (x : Bay) : (x.startSpindown c mayWatch).prk = x.prk := rfl
@[simp] theorem Bay.startSpindown_idx (c : Ctx) (mayWatch : Bool) (x : Bay) : (x.startSpindown c mayWatch).idx = x.idx := rfl
@[simp] theorem Bay.startSpindown_present (c : Ctx) (mayWatch : Bool) (x : Bay) : (x.startSpindown c mayWatch).present = x.present := rfl
@[simp] theorem Bay.startSpindown_prsTimer (c : Ctx) (mayWatch : Bool) (x : Bay) : (x.startSpindown c mayWatch).prsTimer = x.prsTimer := rfl
@[simp] theorem Bay.startSpindown_ejectorOpen (c : Ctx) (mayWatch : Bool) (x : Bay) : (x.startSpindown c mayWatch).ejectorOpen = x.ejectorOpen := rfl
@[simp] theorem Bay.startSpindown_ejcTimer (c : Ctx) (mayWatch : Bool) (x : Bay) : (x.startSpindown c mayWatch).ejcTimer = x.ejcTimer := rfl
@[simp] theorem Bay.startSpindown_fltOn (c : Ctx) (mayWatch : Bool) (x : Bay) : (x.startSpindown c mayWatch).fltOn = x.fltOn := rfl
@[simp] theorem Bay.startSpindown_fltTimer (c : Ctx) (mayWatch : Bool) (x : Bay) : (x.startSpindown c mayWatch).fltTimer = x.fltTimer := rfl
@[simp] theorem Bay.startSpindown_prkOn (c : Ctx) (mayWatch : Bool) (x : Bay) : (x.startSpindown c mayWatch).prkOn = x.prkOn := rfl
@[simp] theorem Bay.startSpindown_prkTimer (c : Ctx) (mayWatch : Bool) (x : Bay) : (x.startSpindown c mayWatch).prkTimer = x.prkTimer := rfl
@[simp] theorem Bay.startSpindown_state (c : Ctx) (mayWatch : Bool) (x : Bay) : (x.startSpindown c mayWatch).state = x.state := rfl
@[simp] theorem Bay.startSpindown_since (c : Ctx) (mayWatch : Bool) (x : Bay) : (x.startSpindown c mayWatch).since = x.since := rfl
@[simp] theorem Bay.startSpindown_demandA (c : Ctx) (mayWatch : Bool) (x : Bay) : (x.startSpindown c mayWatch).demandA = x.demandA := rfl
@[simp] theorem Bay.startSpindown_demandB (c : Ctx) (mayWatch : Bool) (x : Bay) : (x.startSpindown c mayWatch).demandB = x.demandB := rfl
@[simp] theorem Bay.startSpindown_flagA (c : Ctx) (mayWatch : Bool) (x : Bay) : (x.startSpindown c mayWatch).flagA = x.flagA := rfl
@[simp] theorem Bay.startSpindown_flagB (c : Ctx) (mayWatch : Bool) (x : Bay) : (x.startSpindown c mayWatch).flagB = x.flagB := rfl
@[simp] theorem Bay.startSpindown_snapshot (c : Ctx) (mayWatch : Bool) (x : Bay) : (x.startSpindown c mayWatch).snapshot = x.snapshot := rfl
@[simp] theorem Bay.startSpindown_tries (c : Ctx) (mayWatch : Bool) (x : Bay) : (x.startSpindown c mayWatch).tries = x.tries := rfl
@[simp] theorem Bay.startSpindown_retry (c : Ctx) (mayWatch : Bool) (x : Bay) : (x.startSpindown c mayWatch).retry = x.retry := rfl
@[simp] theorem Bay.startSpindown_lastPeriod (c : Ctx) (mayWatch : Bool) (x : Bay) : (x.startSpindown c mayWatch).lastPeriod = x.lastPeriod := rfl
@[simp] theorem Bay.startSpindown_inRun (c : Ctx) (mayWatch : Bool) (x : Bay) : (x.startSpindown c mayWatch).inRun = x.inRun := rfl
@[simp] theorem Bay.startSpindown_outRun (c : Ctx) (mayWatch : Bool) (x : Bay) : (x.startSpindown c mayWatch).outRun = x.outRun := rfl
@[simp] theorem Bay.startSpindown_lastPark (c : Ctx) (mayWatch : Bool) (x : Bay) : (x.startSpindown c mayWatch).lastPark = x.lastPark := rfl
@[simp] theorem Bay.startSpindown_fault (c : Ctx) (mayWatch : Bool) (x : Bay) : (x.startSpindown c mayWatch).fault = x.fault := rfl
@[simp] theorem Bay.startSpindown_cause (c : Ctx) (mayWatch : Bool) (x : Bay) : (x.startSpindown c mayWatch).cause = x.cause := rfl
@[simp] theorem Bay.startSpindown_restMark (c : Ctx) (mayWatch : Bool) (x : Bay) : (x.startSpindown c mayWatch).restMark = (x.restMark || (!x.spin && x.quietElapsed)) := rfl
@[simp] theorem Bay.startSpindown_spinupTimer (c : Ctx) (mayWatch : Bool) (x : Bay) : (x.startSpindown c mayWatch).spinupTimer = x.spinupTimer := rfl
@[simp] theorem Bay.startSpindown_spindownTimer (c : Ctx) (mayWatch : Bool) (x : Bay) : (x.startSpindown c mayWatch).spindownTimer = some (dueAfter c.now x.timing.spindownLimit) := rfl
@[simp] theorem Bay.startSpindown_spindownHeld (c : Ctx) (mayWatch : Bool) (x : Bay) : (x.startSpindown c mayWatch).spindownHeld = x.spindownHeld := rfl
@[simp] theorem Bay.startSpindown_unloadWatch (c : Ctx) (mayWatch : Bool) (x : Bay) : (x.startSpindown c mayWatch).unloadWatch = if mayWatch && !x.prkOn then some (dueAfter c.now x.timing.unloadTime) else none := rfl
@[simp] theorem Bay.startSpindown_dwellTimer (c : Ctx) (mayWatch : Bool) (x : Bay) : (x.startSpindown c mayWatch).dwellTimer = x.dwellTimer := rfl
@[simp] theorem Bay.startSpindown_phase (c : Ctx) (mayWatch : Bool) (x : Bay) : (x.startSpindown c mayWatch).phase = x.phase := rfl
@[simp] theorem Bay.startSpindown_headTimer (c : Ctx) (mayWatch : Bool) (x : Bay) : (x.startSpindown c mayWatch).headTimer = x.headTimer := rfl
@[simp] theorem Bay.startSpindown_pulseTimer (c : Ctx) (mayWatch : Bool) (x : Bay) : (x.startSpindown c mayWatch).pulseTimer = x.pulseTimer := rfl
@[simp] theorem Bay.startSpindown_spin (c : Ctx) (mayWatch : Bool) (x : Bay) : (x.startSpindown c mayWatch).spin = x.spin := rfl
@[simp] theorem Bay.startSpindown_hld (c : Ctx) (mayWatch : Bool) (x : Bay) : (x.startSpindown c mayWatch).hld = x.hld := rfl
@[simp] theorem Bay.startSpindown_rtr (c : Ctx) (mayWatch : Bool) (x : Bay) : (x.startSpindown c mayWatch).rtr = x.rtr := rfl
@[simp] theorem Bay.startSpindown_led (c : Ctx) (mayWatch : Bool) (x : Bay) : (x.startSpindown c mayWatch).led = x.led := rfl
@[simp] theorem Bay.startSpindown_ledPattern (c : Ctx) (mayWatch : Bool) (x : Bay) : (x.startSpindown c mayWatch).ledPattern = x.ledPattern := rfl
@[simp] theorem Bay.startSpindown_ledTimer (c : Ctx) (mayWatch : Bool) (x : Bay) : (x.startSpindown c mayWatch).ledTimer = x.ledTimer := rfl
@[simp] theorem Bay.startSpindown_reference (c : Ctx) (mayWatch : Bool) (x : Bay) : (x.startSpindown c mayWatch).reference = x.reference := rfl
@[simp] theorem Bay.startSpindown_absenceTimer (c : Ctx) (mayWatch : Bool) (x : Bay) : (x.startSpindown c mayWatch).absenceTimer = x.absenceTimer := rfl
@[simp] theorem Bay.startSpindown_quietTimer (c : Ctx) (mayWatch : Bool) (x : Bay) : (x.startSpindown c mayWatch).quietTimer = x.quietTimer := rfl
@[simp] theorem Bay.startSpindown_quietElapsed (c : Ctx) (mayWatch : Bool) (x : Bay) : (x.startSpindown c mayWatch).quietElapsed = x.quietElapsed := rfl
@[simp] theorem Bay.aimDwell_prs (c : Ctx) (x : Bay) : (x.aimDwell c).prs = x.prs := rfl
@[simp] theorem Bay.aimDwell_ejc (c : Ctx) (x : Bay) : (x.aimDwell c).ejc = x.ejc := rfl
@[simp] theorem Bay.aimDwell_flt (c : Ctx) (x : Bay) : (x.aimDwell c).flt = x.flt := rfl
@[simp] theorem Bay.aimDwell_prk (c : Ctx) (x : Bay) : (x.aimDwell c).prk = x.prk := rfl
@[simp] theorem Bay.aimDwell_idx (c : Ctx) (x : Bay) : (x.aimDwell c).idx = x.idx := rfl
@[simp] theorem Bay.aimDwell_present (c : Ctx) (x : Bay) : (x.aimDwell c).present = x.present := rfl
@[simp] theorem Bay.aimDwell_prsTimer (c : Ctx) (x : Bay) : (x.aimDwell c).prsTimer = x.prsTimer := rfl
@[simp] theorem Bay.aimDwell_ejectorOpen (c : Ctx) (x : Bay) : (x.aimDwell c).ejectorOpen = x.ejectorOpen := rfl
@[simp] theorem Bay.aimDwell_ejcTimer (c : Ctx) (x : Bay) : (x.aimDwell c).ejcTimer = x.ejcTimer := rfl
@[simp] theorem Bay.aimDwell_fltOn (c : Ctx) (x : Bay) : (x.aimDwell c).fltOn = x.fltOn := rfl
@[simp] theorem Bay.aimDwell_fltTimer (c : Ctx) (x : Bay) : (x.aimDwell c).fltTimer = x.fltTimer := rfl
@[simp] theorem Bay.aimDwell_prkOn (c : Ctx) (x : Bay) : (x.aimDwell c).prkOn = x.prkOn := rfl
@[simp] theorem Bay.aimDwell_prkTimer (c : Ctx) (x : Bay) : (x.aimDwell c).prkTimer = x.prkTimer := rfl
@[simp] theorem Bay.aimDwell_state (c : Ctx) (x : Bay) : (x.aimDwell c).state = x.state := rfl
@[simp] theorem Bay.aimDwell_since (c : Ctx) (x : Bay) : (x.aimDwell c).since = x.since := rfl
@[simp] theorem Bay.aimDwell_demandA (c : Ctx) (x : Bay) : (x.aimDwell c).demandA = x.demandA := rfl
@[simp] theorem Bay.aimDwell_demandB (c : Ctx) (x : Bay) : (x.aimDwell c).demandB = x.demandB := rfl
@[simp] theorem Bay.aimDwell_flagA (c : Ctx) (x : Bay) : (x.aimDwell c).flagA = x.flagA := rfl
@[simp] theorem Bay.aimDwell_flagB (c : Ctx) (x : Bay) : (x.aimDwell c).flagB = x.flagB := rfl
@[simp] theorem Bay.aimDwell_snapshot (c : Ctx) (x : Bay) : (x.aimDwell c).snapshot = x.snapshot := rfl
@[simp] theorem Bay.aimDwell_tries (c : Ctx) (x : Bay) : (x.aimDwell c).tries = x.tries := rfl
@[simp] theorem Bay.aimDwell_retry (c : Ctx) (x : Bay) : (x.aimDwell c).retry = x.retry := rfl
@[simp] theorem Bay.aimDwell_lastPeriod (c : Ctx) (x : Bay) : (x.aimDwell c).lastPeriod = x.lastPeriod := rfl
@[simp] theorem Bay.aimDwell_inRun (c : Ctx) (x : Bay) : (x.aimDwell c).inRun = x.inRun := rfl
@[simp] theorem Bay.aimDwell_outRun (c : Ctx) (x : Bay) : (x.aimDwell c).outRun = x.outRun := rfl
@[simp] theorem Bay.aimDwell_lastPark (c : Ctx) (x : Bay) : (x.aimDwell c).lastPark = x.lastPark := rfl
@[simp] theorem Bay.aimDwell_fault (c : Ctx) (x : Bay) : (x.aimDwell c).fault = x.fault := rfl
@[simp] theorem Bay.aimDwell_cause (c : Ctx) (x : Bay) : (x.aimDwell c).cause = x.cause := rfl
@[simp] theorem Bay.aimDwell_restMark (c : Ctx) (x : Bay) : (x.aimDwell c).restMark = x.restMark := rfl
@[simp] theorem Bay.aimDwell_spinupTimer (c : Ctx) (x : Bay) : (x.aimDwell c).spinupTimer = x.spinupTimer := rfl
@[simp] theorem Bay.aimDwell_spindownTimer (c : Ctx) (x : Bay) : (x.aimDwell c).spindownTimer = x.spindownTimer := rfl
@[simp] theorem Bay.aimDwell_spindownHeld (c : Ctx) (x : Bay) : (x.aimDwell c).spindownHeld = x.spindownHeld := rfl
@[simp] theorem Bay.aimDwell_unloadWatch (c : Ctx) (x : Bay) : (x.aimDwell c).unloadWatch = x.unloadWatch := rfl
@[simp] theorem Bay.aimDwell_phase (c : Ctx) (x : Bay) : (x.aimDwell c).phase = x.phase := rfl
@[simp] theorem Bay.aimDwell_headTimer (c : Ctx) (x : Bay) : (x.aimDwell c).headTimer = x.headTimer := rfl
@[simp] theorem Bay.aimDwell_pulseTimer (c : Ctx) (x : Bay) : (x.aimDwell c).pulseTimer = x.pulseTimer := rfl
@[simp] theorem Bay.aimDwell_spin (c : Ctx) (x : Bay) : (x.aimDwell c).spin = x.spin := rfl
@[simp] theorem Bay.aimDwell_hld (c : Ctx) (x : Bay) : (x.aimDwell c).hld = x.hld := rfl
@[simp] theorem Bay.aimDwell_rtr (c : Ctx) (x : Bay) : (x.aimDwell c).rtr = x.rtr := rfl
@[simp] theorem Bay.aimDwell_led (c : Ctx) (x : Bay) : (x.aimDwell c).led = x.led := rfl
@[simp] theorem Bay.aimDwell_ledPattern (c : Ctx) (x : Bay) : (x.aimDwell c).ledPattern = x.ledPattern := rfl
@[simp] theorem Bay.aimDwell_ledTimer (c : Ctx) (x : Bay) : (x.aimDwell c).ledTimer = x.ledTimer := rfl
@[simp] theorem Bay.aimDwell_reference (c : Ctx) (x : Bay) : (x.aimDwell c).reference = x.reference := rfl
@[simp] theorem Bay.aimDwell_absenceTimer (c : Ctx) (x : Bay) : (x.aimDwell c).absenceTimer = x.absenceTimer := rfl
@[simp] theorem Bay.aimDwell_quietTimer (c : Ctx) (x : Bay) : (x.aimDwell c).quietTimer = x.quietTimer := rfl
@[simp] theorem Bay.aimDwell_quietElapsed (c : Ctx) (x : Bay) : (x.aimDwell c).quietElapsed = x.quietElapsed := rfl
@[simp] theorem Bay.countIn_prs (x : Bay) : (x.countIn).prs = x.prs := rfl
@[simp] theorem Bay.countIn_ejc (x : Bay) : (x.countIn).ejc = x.ejc := rfl
@[simp] theorem Bay.countIn_flt (x : Bay) : (x.countIn).flt = x.flt := rfl
@[simp] theorem Bay.countIn_prk (x : Bay) : (x.countIn).prk = x.prk := rfl
@[simp] theorem Bay.countIn_idx (x : Bay) : (x.countIn).idx = x.idx := rfl
@[simp] theorem Bay.countIn_present (x : Bay) : (x.countIn).present = x.present := rfl
@[simp] theorem Bay.countIn_prsTimer (x : Bay) : (x.countIn).prsTimer = x.prsTimer := rfl
@[simp] theorem Bay.countIn_ejectorOpen (x : Bay) : (x.countIn).ejectorOpen = x.ejectorOpen := rfl
@[simp] theorem Bay.countIn_ejcTimer (x : Bay) : (x.countIn).ejcTimer = x.ejcTimer := rfl
@[simp] theorem Bay.countIn_fltOn (x : Bay) : (x.countIn).fltOn = x.fltOn := rfl
@[simp] theorem Bay.countIn_fltTimer (x : Bay) : (x.countIn).fltTimer = x.fltTimer := rfl
@[simp] theorem Bay.countIn_prkOn (x : Bay) : (x.countIn).prkOn = x.prkOn := rfl
@[simp] theorem Bay.countIn_prkTimer (x : Bay) : (x.countIn).prkTimer = x.prkTimer := rfl
@[simp] theorem Bay.countIn_state (x : Bay) : (x.countIn).state = x.state := rfl
@[simp] theorem Bay.countIn_since (x : Bay) : (x.countIn).since = x.since := rfl
@[simp] theorem Bay.countIn_demandA (x : Bay) : (x.countIn).demandA = x.demandA := rfl
@[simp] theorem Bay.countIn_demandB (x : Bay) : (x.countIn).demandB = x.demandB := rfl
@[simp] theorem Bay.countIn_flagA (x : Bay) : (x.countIn).flagA = x.flagA := rfl
@[simp] theorem Bay.countIn_flagB (x : Bay) : (x.countIn).flagB = x.flagB := rfl
@[simp] theorem Bay.countIn_snapshot (x : Bay) : (x.countIn).snapshot = x.snapshot := rfl
@[simp] theorem Bay.countIn_tries (x : Bay) : (x.countIn).tries = x.tries := rfl
@[simp] theorem Bay.countIn_retry (x : Bay) : (x.countIn).retry = x.retry := rfl
@[simp] theorem Bay.countIn_lastPeriod (x : Bay) : (x.countIn).lastPeriod = x.lastPeriod := rfl
@[simp] theorem Bay.countIn_inRun (x : Bay) : (x.countIn).inRun = min 64 (x.inRun + 1) := rfl
@[simp] theorem Bay.countIn_outRun (x : Bay) : (x.countIn).outRun = 0 := rfl
@[simp] theorem Bay.countIn_lastPark (x : Bay) : (x.countIn).lastPark = x.lastPark := rfl
@[simp] theorem Bay.countIn_fault (x : Bay) : (x.countIn).fault = x.fault := rfl
@[simp] theorem Bay.countIn_cause (x : Bay) : (x.countIn).cause = x.cause := rfl
@[simp] theorem Bay.countIn_restMark (x : Bay) : (x.countIn).restMark = x.restMark := rfl
@[simp] theorem Bay.countIn_spinupTimer (x : Bay) : (x.countIn).spinupTimer = x.spinupTimer := rfl
@[simp] theorem Bay.countIn_spindownTimer (x : Bay) : (x.countIn).spindownTimer = x.spindownTimer := rfl
@[simp] theorem Bay.countIn_spindownHeld (x : Bay) : (x.countIn).spindownHeld = x.spindownHeld := rfl
@[simp] theorem Bay.countIn_unloadWatch (x : Bay) : (x.countIn).unloadWatch = x.unloadWatch := rfl
@[simp] theorem Bay.countIn_dwellTimer (x : Bay) : (x.countIn).dwellTimer = x.dwellTimer := rfl
@[simp] theorem Bay.countIn_phase (x : Bay) : (x.countIn).phase = x.phase := rfl
@[simp] theorem Bay.countIn_headTimer (x : Bay) : (x.countIn).headTimer = x.headTimer := rfl
@[simp] theorem Bay.countIn_pulseTimer (x : Bay) : (x.countIn).pulseTimer = x.pulseTimer := rfl
@[simp] theorem Bay.countIn_spin (x : Bay) : (x.countIn).spin = x.spin := rfl
@[simp] theorem Bay.countIn_hld (x : Bay) : (x.countIn).hld = x.hld := rfl
@[simp] theorem Bay.countIn_rtr (x : Bay) : (x.countIn).rtr = x.rtr := rfl
@[simp] theorem Bay.countIn_led (x : Bay) : (x.countIn).led = x.led := rfl
@[simp] theorem Bay.countIn_ledPattern (x : Bay) : (x.countIn).ledPattern = x.ledPattern := rfl
@[simp] theorem Bay.countIn_ledTimer (x : Bay) : (x.countIn).ledTimer = x.ledTimer := rfl
@[simp] theorem Bay.countIn_reference (x : Bay) : (x.countIn).reference = x.reference := rfl
@[simp] theorem Bay.countIn_absenceTimer (x : Bay) : (x.countIn).absenceTimer = x.absenceTimer := rfl
@[simp] theorem Bay.countIn_quietTimer (x : Bay) : (x.countIn).quietTimer = x.quietTimer := rfl
@[simp] theorem Bay.countIn_quietElapsed (x : Bay) : (x.countIn).quietElapsed = x.quietElapsed := rfl
@[simp] theorem Bay.countOut_prs (x : Bay) : (x.countOut).prs = x.prs := rfl
@[simp] theorem Bay.countOut_ejc (x : Bay) : (x.countOut).ejc = x.ejc := rfl
@[simp] theorem Bay.countOut_flt (x : Bay) : (x.countOut).flt = x.flt := rfl
@[simp] theorem Bay.countOut_prk (x : Bay) : (x.countOut).prk = x.prk := rfl
@[simp] theorem Bay.countOut_idx (x : Bay) : (x.countOut).idx = x.idx := rfl
@[simp] theorem Bay.countOut_present (x : Bay) : (x.countOut).present = x.present := rfl
@[simp] theorem Bay.countOut_prsTimer (x : Bay) : (x.countOut).prsTimer = x.prsTimer := rfl
@[simp] theorem Bay.countOut_ejectorOpen (x : Bay) : (x.countOut).ejectorOpen = x.ejectorOpen := rfl
@[simp] theorem Bay.countOut_ejcTimer (x : Bay) : (x.countOut).ejcTimer = x.ejcTimer := rfl
@[simp] theorem Bay.countOut_fltOn (x : Bay) : (x.countOut).fltOn = x.fltOn := rfl
@[simp] theorem Bay.countOut_fltTimer (x : Bay) : (x.countOut).fltTimer = x.fltTimer := rfl
@[simp] theorem Bay.countOut_prkOn (x : Bay) : (x.countOut).prkOn = x.prkOn := rfl
@[simp] theorem Bay.countOut_prkTimer (x : Bay) : (x.countOut).prkTimer = x.prkTimer := rfl
@[simp] theorem Bay.countOut_state (x : Bay) : (x.countOut).state = x.state := rfl
@[simp] theorem Bay.countOut_since (x : Bay) : (x.countOut).since = x.since := rfl
@[simp] theorem Bay.countOut_demandA (x : Bay) : (x.countOut).demandA = x.demandA := rfl
@[simp] theorem Bay.countOut_demandB (x : Bay) : (x.countOut).demandB = x.demandB := rfl
@[simp] theorem Bay.countOut_flagA (x : Bay) : (x.countOut).flagA = x.flagA := rfl
@[simp] theorem Bay.countOut_flagB (x : Bay) : (x.countOut).flagB = x.flagB := rfl
@[simp] theorem Bay.countOut_snapshot (x : Bay) : (x.countOut).snapshot = x.snapshot := rfl
@[simp] theorem Bay.countOut_tries (x : Bay) : (x.countOut).tries = x.tries := rfl
@[simp] theorem Bay.countOut_retry (x : Bay) : (x.countOut).retry = x.retry := rfl
@[simp] theorem Bay.countOut_lastPeriod (x : Bay) : (x.countOut).lastPeriod = x.lastPeriod := rfl
@[simp] theorem Bay.countOut_inRun (x : Bay) : (x.countOut).inRun = 0 := rfl
@[simp] theorem Bay.countOut_outRun (x : Bay) : (x.countOut).outRun = min 16 (x.outRun + 1) := rfl
@[simp] theorem Bay.countOut_lastPark (x : Bay) : (x.countOut).lastPark = x.lastPark := rfl
@[simp] theorem Bay.countOut_fault (x : Bay) : (x.countOut).fault = x.fault := rfl
@[simp] theorem Bay.countOut_cause (x : Bay) : (x.countOut).cause = x.cause := rfl
@[simp] theorem Bay.countOut_restMark (x : Bay) : (x.countOut).restMark = x.restMark := rfl
@[simp] theorem Bay.countOut_spinupTimer (x : Bay) : (x.countOut).spinupTimer = x.spinupTimer := rfl
@[simp] theorem Bay.countOut_spindownTimer (x : Bay) : (x.countOut).spindownTimer = x.spindownTimer := rfl
@[simp] theorem Bay.countOut_spindownHeld (x : Bay) : (x.countOut).spindownHeld = x.spindownHeld := rfl
@[simp] theorem Bay.countOut_unloadWatch (x : Bay) : (x.countOut).unloadWatch = x.unloadWatch := rfl
@[simp] theorem Bay.countOut_dwellTimer (x : Bay) : (x.countOut).dwellTimer = x.dwellTimer := rfl
@[simp] theorem Bay.countOut_phase (x : Bay) : (x.countOut).phase = x.phase := rfl
@[simp] theorem Bay.countOut_headTimer (x : Bay) : (x.countOut).headTimer = x.headTimer := rfl
@[simp] theorem Bay.countOut_pulseTimer (x : Bay) : (x.countOut).pulseTimer = x.pulseTimer := rfl
@[simp] theorem Bay.countOut_spin (x : Bay) : (x.countOut).spin = x.spin := rfl
@[simp] theorem Bay.countOut_hld (x : Bay) : (x.countOut).hld = x.hld := rfl
@[simp] theorem Bay.countOut_rtr (x : Bay) : (x.countOut).rtr = x.rtr := rfl
@[simp] theorem Bay.countOut_led (x : Bay) : (x.countOut).led = x.led := rfl
@[simp] theorem Bay.countOut_ledPattern (x : Bay) : (x.countOut).ledPattern = x.ledPattern := rfl
@[simp] theorem Bay.countOut_ledTimer (x : Bay) : (x.countOut).ledTimer = x.ledTimer := rfl
@[simp] theorem Bay.countOut_reference (x : Bay) : (x.countOut).reference = x.reference := rfl
@[simp] theorem Bay.countOut_absenceTimer (x : Bay) : (x.countOut).absenceTimer = x.absenceTimer := rfl
@[simp] theorem Bay.countOut_quietTimer (x : Bay) : (x.countOut).quietTimer = x.quietTimer := rfl
@[simp] theorem Bay.countOut_quietElapsed (x : Bay) : (x.countOut).quietElapsed = x.quietElapsed := rfl
@[simp] theorem Bay.takePulse_prs (c : Ctx) (x : Bay) : (x.takePulse c).prs = x.prs := rfl
@[simp] theorem Bay.takePulse_ejc (c : Ctx) (x : Bay) : (x.takePulse c).ejc = x.ejc := rfl
@[simp] theorem Bay.takePulse_flt (c : Ctx) (x : Bay) : (x.takePulse c).flt = x.flt := rfl
@[simp] theorem Bay.takePulse_prk (c : Ctx) (x : Bay) : (x.takePulse c).prk = x.prk := rfl
@[simp] theorem Bay.takePulse_idx (c : Ctx) (x : Bay) : (x.takePulse c).idx = x.idx := rfl
@[simp] theorem Bay.takePulse_present (c : Ctx) (x : Bay) : (x.takePulse c).present = x.present := rfl
@[simp] theorem Bay.takePulse_prsTimer (c : Ctx) (x : Bay) : (x.takePulse c).prsTimer = x.prsTimer := rfl
@[simp] theorem Bay.takePulse_ejectorOpen (c : Ctx) (x : Bay) : (x.takePulse c).ejectorOpen = x.ejectorOpen := rfl
@[simp] theorem Bay.takePulse_ejcTimer (c : Ctx) (x : Bay) : (x.takePulse c).ejcTimer = x.ejcTimer := rfl
@[simp] theorem Bay.takePulse_fltOn (c : Ctx) (x : Bay) : (x.takePulse c).fltOn = x.fltOn := rfl
@[simp] theorem Bay.takePulse_fltTimer (c : Ctx) (x : Bay) : (x.takePulse c).fltTimer = x.fltTimer := rfl
@[simp] theorem Bay.takePulse_prkOn (c : Ctx) (x : Bay) : (x.takePulse c).prkOn = x.prkOn := rfl
@[simp] theorem Bay.takePulse_prkTimer (c : Ctx) (x : Bay) : (x.takePulse c).prkTimer = x.prkTimer := rfl
@[simp] theorem Bay.takePulse_state (c : Ctx) (x : Bay) : (x.takePulse c).state = x.state := rfl
@[simp] theorem Bay.takePulse_since (c : Ctx) (x : Bay) : (x.takePulse c).since = x.since := rfl
@[simp] theorem Bay.takePulse_demandA (c : Ctx) (x : Bay) : (x.takePulse c).demandA = x.demandA := rfl
@[simp] theorem Bay.takePulse_demandB (c : Ctx) (x : Bay) : (x.takePulse c).demandB = x.demandB := rfl
@[simp] theorem Bay.takePulse_flagA (c : Ctx) (x : Bay) : (x.takePulse c).flagA = x.flagA := rfl
@[simp] theorem Bay.takePulse_flagB (c : Ctx) (x : Bay) : (x.takePulse c).flagB = x.flagB := rfl
@[simp] theorem Bay.takePulse_snapshot (c : Ctx) (x : Bay) : (x.takePulse c).snapshot = x.snapshot := rfl
@[simp] theorem Bay.takePulse_tries (c : Ctx) (x : Bay) : (x.takePulse c).tries = x.tries := rfl
@[simp] theorem Bay.takePulse_retry (c : Ctx) (x : Bay) : (x.takePulse c).retry = x.retry := rfl
@[simp] theorem Bay.takePulse_lastPeriod (c : Ctx) (x : Bay) : (x.takePulse c).lastPeriod = x.lastPeriod := rfl
@[simp] theorem Bay.takePulse_inRun (c : Ctx) (x : Bay) : (x.takePulse c).inRun = x.inRun := rfl
@[simp] theorem Bay.takePulse_outRun (c : Ctx) (x : Bay) : (x.takePulse c).outRun = x.outRun := rfl
@[simp] theorem Bay.takePulse_lastPark (c : Ctx) (x : Bay) : (x.takePulse c).lastPark = x.lastPark := rfl
@[simp] theorem Bay.takePulse_fault (c : Ctx) (x : Bay) : (x.takePulse c).fault = x.fault := rfl
@[simp] theorem Bay.takePulse_cause (c : Ctx) (x : Bay) : (x.takePulse c).cause = x.cause := rfl
@[simp] theorem Bay.takePulse_restMark (c : Ctx) (x : Bay) : (x.takePulse c).restMark = false := rfl
@[simp] theorem Bay.takePulse_spinupTimer (c : Ctx) (x : Bay) : (x.takePulse c).spinupTimer = x.spinupTimer := rfl
@[simp] theorem Bay.takePulse_spindownTimer (c : Ctx) (x : Bay) : (x.takePulse c).spindownTimer = x.spindownTimer := rfl
@[simp] theorem Bay.takePulse_spindownHeld (c : Ctx) (x : Bay) : (x.takePulse c).spindownHeld = x.spindownHeld := rfl
@[simp] theorem Bay.takePulse_unloadWatch (c : Ctx) (x : Bay) : (x.takePulse c).unloadWatch = x.unloadWatch := rfl
@[simp] theorem Bay.takePulse_dwellTimer (c : Ctx) (x : Bay) : (x.takePulse c).dwellTimer = x.dwellTimer := rfl
@[simp] theorem Bay.takePulse_phase (c : Ctx) (x : Bay) : (x.takePulse c).phase = x.phase := rfl
@[simp] theorem Bay.takePulse_headTimer (c : Ctx) (x : Bay) : (x.takePulse c).headTimer = x.headTimer := rfl
@[simp] theorem Bay.takePulse_pulseTimer (c : Ctx) (x : Bay) : (x.takePulse c).pulseTimer = x.pulseTimer := rfl
@[simp] theorem Bay.takePulse_spin (c : Ctx) (x : Bay) : (x.takePulse c).spin = x.spin := rfl
@[simp] theorem Bay.takePulse_hld (c : Ctx) (x : Bay) : (x.takePulse c).hld = x.hld := rfl
@[simp] theorem Bay.takePulse_rtr (c : Ctx) (x : Bay) : (x.takePulse c).rtr = x.rtr := rfl
@[simp] theorem Bay.takePulse_led (c : Ctx) (x : Bay) : (x.takePulse c).led = x.led := rfl
@[simp] theorem Bay.takePulse_ledPattern (c : Ctx) (x : Bay) : (x.takePulse c).ledPattern = x.ledPattern := rfl
@[simp] theorem Bay.takePulse_ledTimer (c : Ctx) (x : Bay) : (x.takePulse c).ledTimer = x.ledTimer := rfl
@[simp] theorem Bay.takePulse_reference (c : Ctx) (x : Bay) : (x.takePulse c).reference = some (stampOf c.now) := rfl
@[simp] theorem Bay.takePulse_absenceTimer (c : Ctx) (x : Bay) : (x.takePulse c).absenceTimer = if x.spin then some (c.now + 2 * x.timing.pNom) else x.absenceTimer := rfl
@[simp] theorem Bay.takePulse_quietTimer (c : Ctx) (x : Bay) : (x.takePulse c).quietTimer = some (dueAfter c.now x.timing.stopQuiet) := rfl
@[simp] theorem Bay.takePulse_quietElapsed (c : Ctx) (x : Bay) : (x.takePulse c).quietElapsed = false := rfl
@[simp] theorem Bay.setDemand_prs (x : Bay) (p : Port) (d : Demand) : (x.setDemand p d).prs = x.prs := by cases p <;> rfl
@[simp] theorem Bay.setDemand_ejc (x : Bay) (p : Port) (d : Demand) : (x.setDemand p d).ejc = x.ejc := by cases p <;> rfl
@[simp] theorem Bay.setDemand_flt (x : Bay) (p : Port) (d : Demand) : (x.setDemand p d).flt = x.flt := by cases p <;> rfl
@[simp] theorem Bay.setDemand_prk (x : Bay) (p : Port) (d : Demand) : (x.setDemand p d).prk = x.prk := by cases p <;> rfl
@[simp] theorem Bay.setDemand_idx (x : Bay) (p : Port) (d : Demand) : (x.setDemand p d).idx = x.idx := by cases p <;> rfl
@[simp] theorem Bay.setDemand_present (x : Bay) (p : Port) (d : Demand) : (x.setDemand p d).present = x.present := by cases p <;> rfl
@[simp] theorem Bay.setDemand_prsTimer (x : Bay) (p : Port) (d : Demand) : (x.setDemand p d).prsTimer = x.prsTimer := by cases p <;> rfl
@[simp] theorem Bay.setDemand_ejectorOpen (x : Bay) (p : Port) (d : Demand) : (x.setDemand p d).ejectorOpen = x.ejectorOpen := by cases p <;> rfl
@[simp] theorem Bay.setDemand_ejcTimer (x : Bay) (p : Port) (d : Demand) : (x.setDemand p d).ejcTimer = x.ejcTimer := by cases p <;> rfl
@[simp] theorem Bay.setDemand_fltOn (x : Bay) (p : Port) (d : Demand) : (x.setDemand p d).fltOn = x.fltOn := by cases p <;> rfl
@[simp] theorem Bay.setDemand_fltTimer (x : Bay) (p : Port) (d : Demand) : (x.setDemand p d).fltTimer = x.fltTimer := by cases p <;> rfl
@[simp] theorem Bay.setDemand_prkOn (x : Bay) (p : Port) (d : Demand) : (x.setDemand p d).prkOn = x.prkOn := by cases p <;> rfl
@[simp] theorem Bay.setDemand_prkTimer (x : Bay) (p : Port) (d : Demand) : (x.setDemand p d).prkTimer = x.prkTimer := by cases p <;> rfl
@[simp] theorem Bay.setDemand_state (x : Bay) (p : Port) (d : Demand) : (x.setDemand p d).state = x.state := by cases p <;> rfl
@[simp] theorem Bay.setDemand_since (x : Bay) (p : Port) (d : Demand) : (x.setDemand p d).since = x.since := by cases p <;> rfl
@[simp] theorem Bay.setDemand_flagA (x : Bay) (p : Port) (d : Demand) : (x.setDemand p d).flagA = x.flagA := by cases p <;> rfl
@[simp] theorem Bay.setDemand_flagB (x : Bay) (p : Port) (d : Demand) : (x.setDemand p d).flagB = x.flagB := by cases p <;> rfl
@[simp] theorem Bay.setDemand_snapshot (x : Bay) (p : Port) (d : Demand) : (x.setDemand p d).snapshot = x.snapshot := by cases p <;> rfl
@[simp] theorem Bay.setDemand_tries (x : Bay) (p : Port) (d : Demand) : (x.setDemand p d).tries = x.tries := by cases p <;> rfl
@[simp] theorem Bay.setDemand_retry (x : Bay) (p : Port) (d : Demand) : (x.setDemand p d).retry = x.retry := by cases p <;> rfl
@[simp] theorem Bay.setDemand_lastPeriod (x : Bay) (p : Port) (d : Demand) : (x.setDemand p d).lastPeriod = x.lastPeriod := by cases p <;> rfl
@[simp] theorem Bay.setDemand_inRun (x : Bay) (p : Port) (d : Demand) : (x.setDemand p d).inRun = x.inRun := by cases p <;> rfl
@[simp] theorem Bay.setDemand_outRun (x : Bay) (p : Port) (d : Demand) : (x.setDemand p d).outRun = x.outRun := by cases p <;> rfl
@[simp] theorem Bay.setDemand_lastPark (x : Bay) (p : Port) (d : Demand) : (x.setDemand p d).lastPark = x.lastPark := by cases p <;> rfl
@[simp] theorem Bay.setDemand_fault (x : Bay) (p : Port) (d : Demand) : (x.setDemand p d).fault = x.fault := by cases p <;> rfl
@[simp] theorem Bay.setDemand_cause (x : Bay) (p : Port) (d : Demand) : (x.setDemand p d).cause = x.cause := by cases p <;> rfl
@[simp] theorem Bay.setDemand_restMark (x : Bay) (p : Port) (d : Demand) : (x.setDemand p d).restMark = x.restMark := by cases p <;> rfl
@[simp] theorem Bay.setDemand_spinupTimer (x : Bay) (p : Port) (d : Demand) : (x.setDemand p d).spinupTimer = x.spinupTimer := by cases p <;> rfl
@[simp] theorem Bay.setDemand_spindownTimer (x : Bay) (p : Port) (d : Demand) : (x.setDemand p d).spindownTimer = x.spindownTimer := by cases p <;> rfl
@[simp] theorem Bay.setDemand_spindownHeld (x : Bay) (p : Port) (d : Demand) : (x.setDemand p d).spindownHeld = x.spindownHeld := by cases p <;> rfl
@[simp] theorem Bay.setDemand_unloadWatch (x : Bay) (p : Port) (d : Demand) : (x.setDemand p d).unloadWatch = x.unloadWatch := by cases p <;> rfl
@[simp] theorem Bay.setDemand_dwellTimer (x : Bay) (p : Port) (d : Demand) : (x.setDemand p d).dwellTimer = x.dwellTimer := by cases p <;> rfl
@[simp] theorem Bay.setDemand_phase (x : Bay) (p : Port) (d : Demand) : (x.setDemand p d).phase = x.phase := by cases p <;> rfl
@[simp] theorem Bay.setDemand_headTimer (x : Bay) (p : Port) (d : Demand) : (x.setDemand p d).headTimer = x.headTimer := by cases p <;> rfl
@[simp] theorem Bay.setDemand_pulseTimer (x : Bay) (p : Port) (d : Demand) : (x.setDemand p d).pulseTimer = x.pulseTimer := by cases p <;> rfl
@[simp] theorem Bay.setDemand_spin (x : Bay) (p : Port) (d : Demand) : (x.setDemand p d).spin = x.spin := by cases p <;> rfl
@[simp] theorem Bay.setDemand_hld (x : Bay) (p : Port) (d : Demand) : (x.setDemand p d).hld = x.hld := by cases p <;> rfl
@[simp] theorem Bay.setDemand_rtr (x : Bay) (p : Port) (d : Demand) : (x.setDemand p d).rtr = x.rtr := by cases p <;> rfl
@[simp] theorem Bay.setDemand_led (x : Bay) (p : Port) (d : Demand) : (x.setDemand p d).led = x.led := by cases p <;> rfl
@[simp] theorem Bay.setDemand_ledPattern (x : Bay) (p : Port) (d : Demand) : (x.setDemand p d).ledPattern = x.ledPattern := by cases p <;> rfl
@[simp] theorem Bay.setDemand_ledTimer (x : Bay) (p : Port) (d : Demand) : (x.setDemand p d).ledTimer = x.ledTimer := by cases p <;> rfl
@[simp] theorem Bay.setDemand_reference (x : Bay) (p : Port) (d : Demand) : (x.setDemand p d).reference = x.reference := by cases p <;> rfl
@[simp] theorem Bay.setDemand_absenceTimer (x : Bay) (p : Port) (d : Demand) : (x.setDemand p d).absenceTimer = x.absenceTimer := by cases p <;> rfl
@[simp] theorem Bay.setDemand_quietTimer (x : Bay) (p : Port) (d : Demand) : (x.setDemand p d).quietTimer = x.quietTimer := by cases p <;> rfl
@[simp] theorem Bay.setDemand_quietElapsed (x : Bay) (p : Port) (d : Demand) : (x.setDemand p d).quietElapsed = x.quietElapsed := by cases p <;> rfl
@[simp] theorem Bay.setFlag_prs (x : Bay) (p : Port) (f : Bool) : (x.setFlag p f).prs = x.prs := by cases p <;> rfl
@[simp] theorem Bay.setFlag_ejc (x : Bay) (p : Port) (f : Bool) : (x.setFlag p f).ejc = x.ejc := by cases p <;> rfl
@[simp] theorem Bay.setFlag_flt (x : Bay) (p : Port) (f : Bool) : (x.setFlag p f).flt = x.flt := by cases p <;> rfl
@[simp] theorem Bay.setFlag_prk (x : Bay) (p : Port) (f : Bool) : (x.setFlag p f).prk = x.prk := by cases p <;> rfl
@[simp] theorem Bay.setFlag_idx (x : Bay) (p : Port) (f : Bool) : (x.setFlag p f).idx = x.idx := by cases p <;> rfl
@[simp] theorem Bay.setFlag_present (x : Bay) (p : Port) (f : Bool) : (x.setFlag p f).present = x.present := by cases p <;> rfl
@[simp] theorem Bay.setFlag_prsTimer (x : Bay) (p : Port) (f : Bool) : (x.setFlag p f).prsTimer = x.prsTimer := by cases p <;> rfl
@[simp] theorem Bay.setFlag_ejectorOpen (x : Bay) (p : Port) (f : Bool) : (x.setFlag p f).ejectorOpen = x.ejectorOpen := by cases p <;> rfl
@[simp] theorem Bay.setFlag_ejcTimer (x : Bay) (p : Port) (f : Bool) : (x.setFlag p f).ejcTimer = x.ejcTimer := by cases p <;> rfl
@[simp] theorem Bay.setFlag_fltOn (x : Bay) (p : Port) (f : Bool) : (x.setFlag p f).fltOn = x.fltOn := by cases p <;> rfl
@[simp] theorem Bay.setFlag_fltTimer (x : Bay) (p : Port) (f : Bool) : (x.setFlag p f).fltTimer = x.fltTimer := by cases p <;> rfl
@[simp] theorem Bay.setFlag_prkOn (x : Bay) (p : Port) (f : Bool) : (x.setFlag p f).prkOn = x.prkOn := by cases p <;> rfl
@[simp] theorem Bay.setFlag_prkTimer (x : Bay) (p : Port) (f : Bool) : (x.setFlag p f).prkTimer = x.prkTimer := by cases p <;> rfl
@[simp] theorem Bay.setFlag_state (x : Bay) (p : Port) (f : Bool) : (x.setFlag p f).state = x.state := by cases p <;> rfl
@[simp] theorem Bay.setFlag_since (x : Bay) (p : Port) (f : Bool) : (x.setFlag p f).since = x.since := by cases p <;> rfl
@[simp] theorem Bay.setFlag_demandA (x : Bay) (p : Port) (f : Bool) : (x.setFlag p f).demandA = x.demandA := by cases p <;> rfl
@[simp] theorem Bay.setFlag_demandB (x : Bay) (p : Port) (f : Bool) : (x.setFlag p f).demandB = x.demandB := by cases p <;> rfl
@[simp] theorem Bay.setFlag_snapshot (x : Bay) (p : Port) (f : Bool) : (x.setFlag p f).snapshot = x.snapshot := by cases p <;> rfl
@[simp] theorem Bay.setFlag_tries (x : Bay) (p : Port) (f : Bool) : (x.setFlag p f).tries = x.tries := by cases p <;> rfl
@[simp] theorem Bay.setFlag_retry (x : Bay) (p : Port) (f : Bool) : (x.setFlag p f).retry = x.retry := by cases p <;> rfl
@[simp] theorem Bay.setFlag_lastPeriod (x : Bay) (p : Port) (f : Bool) : (x.setFlag p f).lastPeriod = x.lastPeriod := by cases p <;> rfl
@[simp] theorem Bay.setFlag_inRun (x : Bay) (p : Port) (f : Bool) : (x.setFlag p f).inRun = x.inRun := by cases p <;> rfl
@[simp] theorem Bay.setFlag_outRun (x : Bay) (p : Port) (f : Bool) : (x.setFlag p f).outRun = x.outRun := by cases p <;> rfl
@[simp] theorem Bay.setFlag_lastPark (x : Bay) (p : Port) (f : Bool) : (x.setFlag p f).lastPark = x.lastPark := by cases p <;> rfl
@[simp] theorem Bay.setFlag_fault (x : Bay) (p : Port) (f : Bool) : (x.setFlag p f).fault = x.fault := by cases p <;> rfl
@[simp] theorem Bay.setFlag_cause (x : Bay) (p : Port) (f : Bool) : (x.setFlag p f).cause = x.cause := by cases p <;> rfl
@[simp] theorem Bay.setFlag_restMark (x : Bay) (p : Port) (f : Bool) : (x.setFlag p f).restMark = x.restMark := by cases p <;> rfl
@[simp] theorem Bay.setFlag_spinupTimer (x : Bay) (p : Port) (f : Bool) : (x.setFlag p f).spinupTimer = x.spinupTimer := by cases p <;> rfl
@[simp] theorem Bay.setFlag_spindownTimer (x : Bay) (p : Port) (f : Bool) : (x.setFlag p f).spindownTimer = x.spindownTimer := by cases p <;> rfl
@[simp] theorem Bay.setFlag_spindownHeld (x : Bay) (p : Port) (f : Bool) : (x.setFlag p f).spindownHeld = x.spindownHeld := by cases p <;> rfl
@[simp] theorem Bay.setFlag_unloadWatch (x : Bay) (p : Port) (f : Bool) : (x.setFlag p f).unloadWatch = x.unloadWatch := by cases p <;> rfl
@[simp] theorem Bay.setFlag_dwellTimer (x : Bay) (p : Port) (f : Bool) : (x.setFlag p f).dwellTimer = x.dwellTimer := by cases p <;> rfl
@[simp] theorem Bay.setFlag_phase (x : Bay) (p : Port) (f : Bool) : (x.setFlag p f).phase = x.phase := by cases p <;> rfl
@[simp] theorem Bay.setFlag_headTimer (x : Bay) (p : Port) (f : Bool) : (x.setFlag p f).headTimer = x.headTimer := by cases p <;> rfl
@[simp] theorem Bay.setFlag_pulseTimer (x : Bay) (p : Port) (f : Bool) : (x.setFlag p f).pulseTimer = x.pulseTimer := by cases p <;> rfl
@[simp] theorem Bay.setFlag_spin (x : Bay) (p : Port) (f : Bool) : (x.setFlag p f).spin = x.spin := by cases p <;> rfl
@[simp] theorem Bay.setFlag_hld (x : Bay) (p : Port) (f : Bool) : (x.setFlag p f).hld = x.hld := by cases p <;> rfl
@[simp] theorem Bay.setFlag_rtr (x : Bay) (p : Port) (f : Bool) : (x.setFlag p f).rtr = x.rtr := by cases p <;> rfl
@[simp] theorem Bay.setFlag_led (x : Bay) (p : Port) (f : Bool) : (x.setFlag p f).led = x.led := by cases p <;> rfl
@[simp] theorem Bay.setFlag_ledPattern (x : Bay) (p : Port) (f : Bool) : (x.setFlag p f).ledPattern = x.ledPattern := by cases p <;> rfl
@[simp] theorem Bay.setFlag_ledTimer (x : Bay) (p : Port) (f : Bool) : (x.setFlag p f).ledTimer = x.ledTimer := by cases p <;> rfl
@[simp] theorem Bay.setFlag_reference (x : Bay) (p : Port) (f : Bool) : (x.setFlag p f).reference = x.reference := by cases p <;> rfl
@[simp] theorem Bay.setFlag_absenceTimer (x : Bay) (p : Port) (f : Bool) : (x.setFlag p f).absenceTimer = x.absenceTimer := by cases p <;> rfl
@[simp] theorem Bay.setFlag_quietTimer (x : Bay) (p : Port) (f : Bool) : (x.setFlag p f).quietTimer = x.quietTimer := by cases p <;> rfl
@[simp] theorem Bay.setFlag_quietElapsed (x : Bay) (p : Port) (f : Bool) : (x.setFlag p f).quietElapsed = x.quietElapsed := by cases p <;> rfl
@[simp] theorem Bay.relight_prs (c : Ctx) (x : Bay) : (x.relight c).prs = x.prs := by unfold Bay.relight; split <;> rfl
@[simp] theorem Bay.relight_ejc (c : Ctx) (x : Bay) : (x.relight c).ejc = x.ejc := by unfold Bay.relight; split <;> rfl
@[simp] theorem Bay.relight_flt (c : Ctx) (x : Bay) : (x.relight c).flt = x.flt := by unfold Bay.relight; split <;> rfl
@[simp] theorem Bay.relight_prk (c : Ctx) (x : Bay) : (x.relight c).prk = x.prk := by unfold Bay.relight; split <;> rfl
@[simp] theorem Bay.relight_idx (c : Ctx) (x : Bay) : (x.relight c).idx = x.idx := by unfold Bay.relight; split <;> rfl
@[simp] theorem Bay.relight_present (c : Ctx) (x : Bay) : (x.relight c).present = x.present := by unfold Bay.relight; split <;> rfl
@[simp] theorem Bay.relight_prsTimer (c : Ctx) (x : Bay) : (x.relight c).prsTimer = x.prsTimer := by unfold Bay.relight; split <;> rfl
@[simp] theorem Bay.relight_ejectorOpen (c : Ctx) (x : Bay) : (x.relight c).ejectorOpen = x.ejectorOpen := by unfold Bay.relight; split <;> rfl
@[simp] theorem Bay.relight_ejcTimer (c : Ctx) (x : Bay) : (x.relight c).ejcTimer = x.ejcTimer := by unfold Bay.relight; split <;> rfl
@[simp] theorem Bay.relight_fltOn (c : Ctx) (x : Bay) : (x.relight c).fltOn = x.fltOn := by unfold Bay.relight; split <;> rfl
@[simp] theorem Bay.relight_fltTimer (c : Ctx) (x : Bay) : (x.relight c).fltTimer = x.fltTimer := by unfold Bay.relight; split <;> rfl
@[simp] theorem Bay.relight_prkOn (c : Ctx) (x : Bay) : (x.relight c).prkOn = x.prkOn := by unfold Bay.relight; split <;> rfl
@[simp] theorem Bay.relight_prkTimer (c : Ctx) (x : Bay) : (x.relight c).prkTimer = x.prkTimer := by unfold Bay.relight; split <;> rfl
@[simp] theorem Bay.relight_state (c : Ctx) (x : Bay) : (x.relight c).state = x.state := by unfold Bay.relight; split <;> rfl
@[simp] theorem Bay.relight_since (c : Ctx) (x : Bay) : (x.relight c).since = x.since := by unfold Bay.relight; split <;> rfl
@[simp] theorem Bay.relight_demandA (c : Ctx) (x : Bay) : (x.relight c).demandA = x.demandA := by unfold Bay.relight; split <;> rfl
@[simp] theorem Bay.relight_demandB (c : Ctx) (x : Bay) : (x.relight c).demandB = x.demandB := by unfold Bay.relight; split <;> rfl
@[simp] theorem Bay.relight_flagA (c : Ctx) (x : Bay) : (x.relight c).flagA = x.flagA := by unfold Bay.relight; split <;> rfl
@[simp] theorem Bay.relight_flagB (c : Ctx) (x : Bay) : (x.relight c).flagB = x.flagB := by unfold Bay.relight; split <;> rfl
@[simp] theorem Bay.relight_snapshot (c : Ctx) (x : Bay) : (x.relight c).snapshot = x.snapshot := by unfold Bay.relight; split <;> rfl
@[simp] theorem Bay.relight_tries (c : Ctx) (x : Bay) : (x.relight c).tries = x.tries := by unfold Bay.relight; split <;> rfl
@[simp] theorem Bay.relight_retry (c : Ctx) (x : Bay) : (x.relight c).retry = x.retry := by unfold Bay.relight; split <;> rfl
@[simp] theorem Bay.relight_lastPeriod (c : Ctx) (x : Bay) : (x.relight c).lastPeriod = x.lastPeriod := by unfold Bay.relight; split <;> rfl
@[simp] theorem Bay.relight_inRun (c : Ctx) (x : Bay) : (x.relight c).inRun = x.inRun := by unfold Bay.relight; split <;> rfl
@[simp] theorem Bay.relight_outRun (c : Ctx) (x : Bay) : (x.relight c).outRun = x.outRun := by unfold Bay.relight; split <;> rfl
@[simp] theorem Bay.relight_lastPark (c : Ctx) (x : Bay) : (x.relight c).lastPark = x.lastPark := by unfold Bay.relight; split <;> rfl
@[simp] theorem Bay.relight_fault (c : Ctx) (x : Bay) : (x.relight c).fault = x.fault := by unfold Bay.relight; split <;> rfl
@[simp] theorem Bay.relight_cause (c : Ctx) (x : Bay) : (x.relight c).cause = x.cause := by unfold Bay.relight; split <;> rfl
@[simp] theorem Bay.relight_restMark (c : Ctx) (x : Bay) : (x.relight c).restMark = x.restMark := by unfold Bay.relight; split <;> rfl
@[simp] theorem Bay.relight_spinupTimer (c : Ctx) (x : Bay) : (x.relight c).spinupTimer = x.spinupTimer := by unfold Bay.relight; split <;> rfl
@[simp] theorem Bay.relight_spindownTimer (c : Ctx) (x : Bay) : (x.relight c).spindownTimer = x.spindownTimer := by unfold Bay.relight; split <;> rfl
@[simp] theorem Bay.relight_spindownHeld (c : Ctx) (x : Bay) : (x.relight c).spindownHeld = x.spindownHeld := by unfold Bay.relight; split <;> rfl
@[simp] theorem Bay.relight_unloadWatch (c : Ctx) (x : Bay) : (x.relight c).unloadWatch = x.unloadWatch := by unfold Bay.relight; split <;> rfl
@[simp] theorem Bay.relight_dwellTimer (c : Ctx) (x : Bay) : (x.relight c).dwellTimer = x.dwellTimer := by unfold Bay.relight; split <;> rfl
@[simp] theorem Bay.relight_phase (c : Ctx) (x : Bay) : (x.relight c).phase = x.phase := by unfold Bay.relight; split <;> rfl
@[simp] theorem Bay.relight_headTimer (c : Ctx) (x : Bay) : (x.relight c).headTimer = x.headTimer := by unfold Bay.relight; split <;> rfl
@[simp] theorem Bay.relight_pulseTimer (c : Ctx) (x : Bay) : (x.relight c).pulseTimer = x.pulseTimer := by unfold Bay.relight; split <;> rfl
@[simp] theorem Bay.relight_spin (c : Ctx) (x : Bay) : (x.relight c).spin = x.spin := by unfold Bay.relight; split <;> rfl
@[simp] theorem Bay.relight_hld (c : Ctx) (x : Bay) : (x.relight c).hld = x.hld := by unfold Bay.relight; split <;> rfl
@[simp] theorem Bay.relight_rtr (c : Ctx) (x : Bay) : (x.relight c).rtr = x.rtr := by unfold Bay.relight; split <;> rfl
@[simp] theorem Bay.relight_reference (c : Ctx) (x : Bay) : (x.relight c).reference = x.reference := by unfold Bay.relight; split <;> rfl
@[simp] theorem Bay.relight_absenceTimer (c : Ctx) (x : Bay) : (x.relight c).absenceTimer = x.absenceTimer := by unfold Bay.relight; split <;> rfl
@[simp] theorem Bay.relight_quietTimer (c : Ctx) (x : Bay) : (x.relight c).quietTimer = x.quietTimer := by unfold Bay.relight; split <;> rfl
@[simp] theorem Bay.relight_quietElapsed (c : Ctx) (x : Bay) : (x.relight c).quietElapsed = x.quietElapsed := by unfold Bay.relight; split <;> rfl
@[simp] theorem Bay.dropSpin_prs (c : Ctx) (x : Bay) : (x.dropSpin c).prs = x.prs := by unfold Bay.dropSpin; split <;> rfl
@[simp] theorem Bay.dropSpin_ejc (c : Ctx) (x : Bay) : (x.dropSpin c).ejc = x.ejc := by unfold Bay.dropSpin; split <;> rfl
@[simp] theorem Bay.dropSpin_flt (c : Ctx) (x : Bay) : (x.dropSpin c).flt = x.flt := by unfold Bay.dropSpin; split <;> rfl
@[simp] theorem Bay.dropSpin_prk (c : Ctx) (x : Bay) : (x.dropSpin c).prk = x.prk := by unfold Bay.dropSpin; split <;> rfl
@[simp] theorem Bay.dropSpin_idx (c : Ctx) (x : Bay) : (x.dropSpin c).idx = x.idx := by unfold Bay.dropSpin; split <;> rfl
@[simp] theorem Bay.dropSpin_present (c : Ctx) (x : Bay) : (x.dropSpin c).present = x.present := by unfold Bay.dropSpin; split <;> rfl
@[simp] theorem Bay.dropSpin_prsTimer (c : Ctx) (x : Bay) : (x.dropSpin c).prsTimer = x.prsTimer := by unfold Bay.dropSpin; split <;> rfl
@[simp] theorem Bay.dropSpin_ejectorOpen (c : Ctx) (x : Bay) : (x.dropSpin c).ejectorOpen = x.ejectorOpen := by unfold Bay.dropSpin; split <;> rfl
@[simp] theorem Bay.dropSpin_ejcTimer (c : Ctx) (x : Bay) : (x.dropSpin c).ejcTimer = x.ejcTimer := by unfold Bay.dropSpin; split <;> rfl
@[simp] theorem Bay.dropSpin_fltOn (c : Ctx) (x : Bay) : (x.dropSpin c).fltOn = x.fltOn := by unfold Bay.dropSpin; split <;> rfl
@[simp] theorem Bay.dropSpin_fltTimer (c : Ctx) (x : Bay) : (x.dropSpin c).fltTimer = x.fltTimer := by unfold Bay.dropSpin; split <;> rfl
@[simp] theorem Bay.dropSpin_prkOn (c : Ctx) (x : Bay) : (x.dropSpin c).prkOn = x.prkOn := by unfold Bay.dropSpin; split <;> rfl
@[simp] theorem Bay.dropSpin_prkTimer (c : Ctx) (x : Bay) : (x.dropSpin c).prkTimer = x.prkTimer := by unfold Bay.dropSpin; split <;> rfl
@[simp] theorem Bay.dropSpin_state (c : Ctx) (x : Bay) : (x.dropSpin c).state = x.state := by unfold Bay.dropSpin; split <;> rfl
@[simp] theorem Bay.dropSpin_since (c : Ctx) (x : Bay) : (x.dropSpin c).since = x.since := by unfold Bay.dropSpin; split <;> rfl
@[simp] theorem Bay.dropSpin_demandA (c : Ctx) (x : Bay) : (x.dropSpin c).demandA = x.demandA := by unfold Bay.dropSpin; split <;> rfl
@[simp] theorem Bay.dropSpin_demandB (c : Ctx) (x : Bay) : (x.dropSpin c).demandB = x.demandB := by unfold Bay.dropSpin; split <;> rfl
@[simp] theorem Bay.dropSpin_flagA (c : Ctx) (x : Bay) : (x.dropSpin c).flagA = x.flagA := by unfold Bay.dropSpin; split <;> rfl
@[simp] theorem Bay.dropSpin_flagB (c : Ctx) (x : Bay) : (x.dropSpin c).flagB = x.flagB := by unfold Bay.dropSpin; split <;> rfl
@[simp] theorem Bay.dropSpin_snapshot (c : Ctx) (x : Bay) : (x.dropSpin c).snapshot = x.snapshot := by unfold Bay.dropSpin; split <;> rfl
@[simp] theorem Bay.dropSpin_tries (c : Ctx) (x : Bay) : (x.dropSpin c).tries = x.tries := by unfold Bay.dropSpin; split <;> rfl
@[simp] theorem Bay.dropSpin_retry (c : Ctx) (x : Bay) : (x.dropSpin c).retry = x.retry := by unfold Bay.dropSpin; split <;> rfl
@[simp] theorem Bay.dropSpin_lastPeriod (c : Ctx) (x : Bay) : (x.dropSpin c).lastPeriod = x.lastPeriod := by unfold Bay.dropSpin; split <;> rfl
@[simp] theorem Bay.dropSpin_inRun (c : Ctx) (x : Bay) : (x.dropSpin c).inRun = x.inRun := by unfold Bay.dropSpin; split <;> rfl
@[simp] theorem Bay.dropSpin_outRun (c : Ctx) (x : Bay) : (x.dropSpin c).outRun = x.outRun := by unfold Bay.dropSpin; split <;> rfl
@[simp] theorem Bay.dropSpin_lastPark (c : Ctx) (x : Bay) : (x.dropSpin c).lastPark = x.lastPark := by unfold Bay.dropSpin; split <;> rfl
@[simp] theorem Bay.dropSpin_fault (c : Ctx) (x : Bay) : (x.dropSpin c).fault = x.fault := by unfold Bay.dropSpin; split <;> rfl
@[simp] theorem Bay.dropSpin_cause (c : Ctx) (x : Bay) : (x.dropSpin c).cause = x.cause := by unfold Bay.dropSpin; split <;> rfl
@[simp] theorem Bay.dropSpin_restMark (c : Ctx) (x : Bay) : (x.dropSpin c).restMark = x.restMark := by unfold Bay.dropSpin; split <;> rfl
@[simp] theorem Bay.dropSpin_spinupTimer (c : Ctx) (x : Bay) : (x.dropSpin c).spinupTimer = x.spinupTimer := by unfold Bay.dropSpin; split <;> rfl
@[simp] theorem Bay.dropSpin_spindownTimer (c : Ctx) (x : Bay) : (x.dropSpin c).spindownTimer = x.spindownTimer := by unfold Bay.dropSpin; split <;> rfl
@[simp] theorem Bay.dropSpin_spindownHeld (c : Ctx) (x : Bay) : (x.dropSpin c).spindownHeld = x.spindownHeld := by unfold Bay.dropSpin; split <;> rfl
@[simp] theorem Bay.dropSpin_unloadWatch (c : Ctx) (x : Bay) : (x.dropSpin c).unloadWatch = x.unloadWatch := by unfold Bay.dropSpin; split <;> rfl
@[simp] theorem Bay.dropSpin_dwellTimer (c : Ctx) (x : Bay) : (x.dropSpin c).dwellTimer = x.dwellTimer := by unfold Bay.dropSpin; split <;> rfl
@[simp] theorem Bay.dropSpin_phase (c : Ctx) (x : Bay) : (x.dropSpin c).phase = x.phase := by unfold Bay.dropSpin; split <;> rfl
@[simp] theorem Bay.dropSpin_headTimer (c : Ctx) (x : Bay) : (x.dropSpin c).headTimer = x.headTimer := by unfold Bay.dropSpin; split <;> rfl
@[simp] theorem Bay.dropSpin_pulseTimer (c : Ctx) (x : Bay) : (x.dropSpin c).pulseTimer = x.pulseTimer := by unfold Bay.dropSpin; split <;> rfl
@[simp] theorem Bay.dropSpin_hld (c : Ctx) (x : Bay) : (x.dropSpin c).hld = x.hld := by unfold Bay.dropSpin; split <;> rfl
@[simp] theorem Bay.dropSpin_rtr (c : Ctx) (x : Bay) : (x.dropSpin c).rtr = x.rtr := by unfold Bay.dropSpin; split <;> rfl
@[simp] theorem Bay.dropSpin_led (c : Ctx) (x : Bay) : (x.dropSpin c).led = x.led := by unfold Bay.dropSpin; split <;> rfl
@[simp] theorem Bay.dropSpin_ledPattern (c : Ctx) (x : Bay) : (x.dropSpin c).ledPattern = x.ledPattern := by unfold Bay.dropSpin; split <;> rfl
@[simp] theorem Bay.dropSpin_ledTimer (c : Ctx) (x : Bay) : (x.dropSpin c).ledTimer = x.ledTimer := by unfold Bay.dropSpin; split <;> rfl
@[simp] theorem Bay.dropSpin_reference (c : Ctx) (x : Bay) : (x.dropSpin c).reference = x.reference := by unfold Bay.dropSpin; split <;> rfl
@[simp] theorem Bay.relight_merged (c : Ctx) (x : Bay) : (x.relight c).merged = x.merged := by simp [Bay.merged]
@[simp] theorem Bay.relight_timing (c : Ctx) (x : Bay) : (x.relight c).timing = x.timing := by simp [Bay.timing]
@[simp] theorem Bay.dropSpin_merged (c : Ctx) (x : Bay) : (x.dropSpin c).merged = x.merged := by simp [Bay.merged]
@[simp] theorem Bay.dropSpin_timing (c : Ctx) (x : Bay) : (x.dropSpin c).timing = x.timing := by simp [Bay.timing]
@[simp] theorem Bay.clearRetry_merged (x : Bay) : (x.clearRetry).merged = x.merged := by simp [Bay.merged]
@[simp] theorem Bay.clearRetry_timing (x : Bay) : (x.clearRetry).timing = x.timing := by simp [Bay.timing]
@[simp] theorem Bay.park_merged (c : Ctx) (x : Bay) : (x.park c).merged = x.merged := by simp [Bay.merged]
@[simp] theorem Bay.park_timing (c : Ctx) (x : Bay) : (x.park c).timing = x.timing := by simp [Bay.timing]
@[simp] theorem Bay.entering_merged (c : Ctx) (st : BayState) (x : Bay) : (x.entering c st).merged = x.merged := by simp [Bay.merged]
@[simp] theorem Bay.entering_timing (c : Ctx) (st : BayState) (x : Bay) : (x.entering c st).timing = x.timing := by simp [Bay.timing]
@[simp] theorem Bay.takePulse_merged (c : Ctx) (x : Bay) : (x.takePulse c).merged = x.merged := by simp [Bay.merged]
@[simp] theorem Bay.takePulse_timing (c : Ctx) (x : Bay) : (x.takePulse c).timing = x.timing := by simp [Bay.timing]
@[simp] theorem Bay.countIn_merged (x : Bay) : (x.countIn).merged = x.merged := by simp [Bay.merged]
@[simp] theorem Bay.countIn_timing (x : Bay) : (x.countIn).timing = x.timing := by simp [Bay.timing]
@[simp] theorem Bay.countOut_merged (x : Bay) : (x.countOut).merged = x.merged := by simp [Bay.merged]
@[simp] theorem Bay.countOut_timing (x : Bay) : (x.countOut).timing = x.timing := by simp [Bay.timing]

@[simp] theorem Bay.dropSpin_spin (c : Ctx) (x : Bay) : (x.dropSpin c).spin = false := by
  unfold Bay.dropSpin; split <;> simp_all

@[simp] theorem Bay.dropSpin_absenceTimer (c : Ctx) (x : Bay) :
    (x.dropSpin c).absenceTimer = if x.spin then none else x.absenceTimer := by
  unfold Bay.dropSpin; split <;> simp_all

@[simp] theorem Bay.dropSpin_quietTimer (c : Ctx) (x : Bay) :
    (x.dropSpin c).quietTimer = if x.spin then some (dueAfter c.now x.timing.stopQuiet) else x.quietTimer := by
  unfold Bay.dropSpin; split <;> simp_all

@[simp] theorem Bay.dropSpin_quietElapsed (c : Ctx) (x : Bay) :
    (x.dropSpin c).quietElapsed = (!x.spin && x.quietElapsed) := by
  unfold Bay.dropSpin; split <;> simp_all

@[simp] theorem Bay.demand_setDemand (x : Bay) (p : Port) (d : Demand) : (x.setDemand p d).demand p = d := by
  cases p <;> rfl

@[simp] theorem Bay.demand_setDemand_peer (x : Bay) (p : Port) (d : Demand) :
    (x.setDemand p d).demand p.peer = x.demand p.peer := by
  cases p <;> rfl

@[simp] theorem Bay.flag_setFlag (x : Bay) (p : Port) (f : Bool) : (x.setFlag p f).flag p = f := by
  cases p <;> rfl

@[simp] theorem Bay.flag_setFlag_peer (x : Bay) (p : Port) (f : Bool) :
    (x.setFlag p f).flag p.peer = x.flag p.peer := by
  cases p <;> rfl

@[simp] theorem Bay.demand_setFlag (x : Bay) (p q : Port) (f : Bool) : (x.setFlag p f).demand q = x.demand q := by
  cases p <;> cases q <;> rfl

@[simp] theorem Bay.flag_setDemand (x : Bay) (p q : Port) (d : Demand) :
    (x.setDemand p d).flag q = x.flag q := by
  cases p <;> cases q <;> rfl

/-! ### Port units -/

@[simp] theorem PortUnit.setChanged_discard (b : BayNo) (u : PortUnit) : (u.setChanged b).discard = u.discard := rfl
@[simp] theorem PortUnit.setChanged_outstanding (b : BayNo) (u : PortUnit) : (u.setChanged b).outstanding = u.outstanding := rfl
@[simp] theorem PortUnit.setChanged_completions (b : BayNo) (u : PortUnit) : (u.setChanged b).completions = u.completions := rfl
@[simp] theorem PortUnit.setChanged_notice (b : BayNo) (u : PortUnit) : (u.setChanged b).notice = u.notice := rfl
@[simp] theorem PortUnit.setChanged_maskC (b : BayNo) (u : PortUnit) : (u.setChanged b).maskC = u.maskC := rfl
@[simp] theorem PortUnit.setChanged_maskN (b : BayNo) (u : PortUnit) : (u.setChanged b).maskN = u.maskN := rfl
@[simp] theorem PortUnit.setChanged_maskM (b : BayNo) (u : PortUnit) : (u.setChanged b).maskM = u.maskM := rfl
@[simp] theorem PortUnit.setChanged_maskB (b : BayNo) (u : PortUnit) : (u.setChanged b).maskB = u.maskB := rfl
@[simp] theorem PortUnit.setChanged_changed (b : BayNo) (u : PortUnit) : (u.setChanged b).changed = u.changed.set b true := rfl
@[simp] theorem PortUnit.setChanged_motionChanged (b : BayNo) (u : PortUnit) : (u.setChanged b).motionChanged = u.motionChanged := rfl
@[simp] theorem PortUnit.setMotionChanged_discard (u : PortUnit) : (u.setMotionChanged).discard = u.discard := rfl
@[simp] theorem PortUnit.setMotionChanged_outstanding (u : PortUnit) : (u.setMotionChanged).outstanding = u.outstanding := rfl
@[simp] theorem PortUnit.setMotionChanged_completions (u : PortUnit) : (u.setMotionChanged).completions = u.completions := rfl
@[simp] theorem PortUnit.setMotionChanged_notice (u : PortUnit) : (u.setMotionChanged).notice = u.notice := rfl
@[simp] theorem PortUnit.setMotionChanged_maskC (u : PortUnit) : (u.setMotionChanged).maskC = u.maskC := rfl
@[simp] theorem PortUnit.setMotionChanged_maskN (u : PortUnit) : (u.setMotionChanged).maskN = u.maskN := rfl
@[simp] theorem PortUnit.setMotionChanged_maskM (u : PortUnit) : (u.setMotionChanged).maskM = u.maskM := rfl
@[simp] theorem PortUnit.setMotionChanged_maskB (u : PortUnit) : (u.setMotionChanged).maskB = u.maskB := rfl
@[simp] theorem PortUnit.setMotionChanged_changed (u : PortUnit) : (u.setMotionChanged).changed = u.changed := rfl
@[simp] theorem PortUnit.setMotionChanged_motionChanged (u : PortUnit) : (u.setMotionChanged).motionChanged = true := rfl
@[simp] theorem PortUnit.ring_discard (bits : Half) (u : PortUnit) : (u.ring bits).discard = u.discard := rfl
@[simp] theorem PortUnit.ring_outstanding (bits : Half) (u : PortUnit) : (u.ring bits).outstanding = u.outstanding := rfl
@[simp] theorem PortUnit.ring_completions (bits : Half) (u : PortUnit) : (u.ring bits).completions = u.completions := rfl
@[simp] theorem PortUnit.ring_notice (bits : Half) (u : PortUnit) : (u.ring bits).notice = u.notice ||| bits := rfl
@[simp] theorem PortUnit.ring_maskC (bits : Half) (u : PortUnit) : (u.ring bits).maskC = u.maskC := rfl
@[simp] theorem PortUnit.ring_maskN (bits : Half) (u : PortUnit) : (u.ring bits).maskN = u.maskN := rfl
@[simp] theorem PortUnit.ring_maskM (bits : Half) (u : PortUnit) : (u.ring bits).maskM = u.maskM := rfl
@[simp] theorem PortUnit.ring_maskB (bits : Half) (u : PortUnit) : (u.ring bits).maskB = u.maskB := rfl
@[simp] theorem PortUnit.ring_changed (bits : Half) (u : PortUnit) : (u.ring bits).changed = u.changed := rfl
@[simp] theorem PortUnit.ring_motionChanged (bits : Half) (u : PortUnit) : (u.ring bits).motionChanged = u.motionChanged := rfl
@[simp] theorem PortUnit.setMask_frame (mask : Byte) (u : PortUnit) : (u.setMask mask).frame = u.frame := rfl
@[simp] theorem PortUnit.setMask_discard (mask : Byte) (u : PortUnit) : (u.setMask mask).discard = u.discard := rfl
@[simp] theorem PortUnit.setMask_outstanding (mask : Byte) (u : PortUnit) : (u.setMask mask).outstanding = u.outstanding := rfl
@[simp] theorem PortUnit.setMask_completions (mask : Byte) (u : PortUnit) : (u.setMask mask).completions = u.completions := rfl
@[simp] theorem PortUnit.setMask_notice (mask : Byte) (u : PortUnit) : (u.setMask mask).notice = u.notice := rfl
@[simp] theorem PortUnit.setMask_maskC (mask : Byte) (u : PortUnit) : (u.setMask mask).maskC = mask.getLsbD 0 := rfl
@[simp] theorem PortUnit.setMask_maskN (mask : Byte) (u : PortUnit) : (u.setMask mask).maskN = mask.getLsbD 1 := rfl
@[simp] theorem PortUnit.setMask_maskM (mask : Byte) (u : PortUnit) : (u.setMask mask).maskM = mask.getLsbD 2 := rfl
@[simp] theorem PortUnit.setMask_maskB (mask : Byte) (u : PortUnit) : (u.setMask mask).maskB = mask.getLsbD 3 := rfl
@[simp] theorem PortUnit.setMask_changed (mask : Byte) (u : PortUnit) : (u.setMask mask).changed = u.changed := rfl
@[simp] theorem PortUnit.setMask_motionChanged (mask : Byte) (u : PortUnit) : (u.setMask mask).motionChanged = u.motionChanged := rfl
@[simp] theorem PortUnit.restart_frame (u : PortUnit) : (u.restart).frame = u.frame := rfl
@[simp] theorem PortUnit.restart_discard (u : PortUnit) : (u.restart).discard = u.discard := rfl
@[simp] theorem PortUnit.restart_outstanding (u : PortUnit) : (u.restart).outstanding = [] := rfl
@[simp] theorem PortUnit.restart_completions (u : PortUnit) : (u.restart).completions = [] := rfl
@[simp] theorem PortUnit.restart_notice (u : PortUnit) : (u.restart).notice = 0 := rfl
@[simp] theorem PortUnit.restart_maskC (u : PortUnit) : (u.restart).maskC = true := rfl
@[simp] theorem PortUnit.restart_maskN (u : PortUnit) : (u.restart).maskN = true := rfl
@[simp] theorem PortUnit.restart_maskM (u : PortUnit) : (u.restart).maskM = true := rfl
@[simp] theorem PortUnit.restart_maskB (u : PortUnit) : (u.restart).maskB = true := rfl
@[simp] theorem PortUnit.restart_changed (u : PortUnit) : (u.restart).changed = Eight.all true := rfl
@[simp] theorem PortUnit.restart_motionChanged (u : PortUnit) : (u.restart).motionChanged = true := rfl
@[simp] theorem PortUnit.onFact_discard (b : BayNo) (f : Fact) (u : PortUnit) : (u.onFact b f).discard = u.discard := by unfold PortUnit.onFact; split <;> rfl
@[simp] theorem PortUnit.onFact_outstanding (b : BayNo) (f : Fact) (u : PortUnit) : (u.onFact b f).outstanding = u.outstanding := by unfold PortUnit.onFact; split <;> rfl
@[simp] theorem PortUnit.onFact_completions (b : BayNo) (f : Fact) (u : PortUnit) : (u.onFact b f).completions = u.completions := by unfold PortUnit.onFact; split <;> rfl
@[simp] theorem PortUnit.onFact_notice (b : BayNo) (f : Fact) (u : PortUnit) : (u.onFact b f).notice = u.notice := by unfold PortUnit.onFact; split <;> rfl
@[simp] theorem PortUnit.onFact_maskC (b : BayNo) (f : Fact) (u : PortUnit) : (u.onFact b f).maskC = u.maskC := by unfold PortUnit.onFact; split <;> rfl
@[simp] theorem PortUnit.onFact_maskN (b : BayNo) (f : Fact) (u : PortUnit) : (u.onFact b f).maskN = u.maskN := by unfold PortUnit.onFact; split <;> rfl
@[simp] theorem PortUnit.onFact_maskM (b : BayNo) (f : Fact) (u : PortUnit) : (u.onFact b f).maskM = u.maskM := by unfold PortUnit.onFact; split <;> rfl
@[simp] theorem PortUnit.onFact_maskB (b : BayNo) (f : Fact) (u : PortUnit) : (u.onFact b f).maskB = u.maskB := by unfold PortUnit.onFact; split <;> rfl
@[simp] theorem PortUnit.onFact_motionChanged (b : BayNo) (f : Fact) (u : PortUnit) : (u.onFact b f).motionChanged = u.motionChanged := by unfold PortUnit.onFact; split <;> rfl

/-! ### The arbiter -/

@[simp] theorem Arbiter.onFact_battery (b : BayNo) (f : Fact) (a : Arbiter) : (a.onFact b f).battery = a.battery := by unfold Arbiter.onFact; split <;> rfl
@[simp] theorem Arbiter.onFact_srcRaw (b : BayNo) (f : Fact) (a : Arbiter) : (a.onFact b f).srcRaw = a.srcRaw := by unfold Arbiter.onFact; split <;> rfl
@[simp] theorem Arbiter.onFact_srcTimer (b : BayNo) (f : Fact) (a : Arbiter) : (a.onFact b f).srcTimer = a.srcTimer := by unfold Arbiter.onFact; split <;> rfl
@[simp] theorem Arbiter.onFact_limit (b : BayNo) (f : Fact) (a : Arbiter) : (a.onFact b f).limit = a.limit := by unfold Arbiter.onFact; split <;> rfl
@[simp] theorem Arbiter.onFact_lastGrant (b : BayNo) (f : Fact) (a : Arbiter) : (a.onFact b f).lastGrant = a.lastGrant := by unfold Arbiter.onFact; split <;> rfl
@[simp] theorem Arbiter.onFact_gapTimer (b : BayNo) (f : Fact) (a : Arbiter) : (a.onFact b f).gapTimer = a.gapTimer := by unfold Arbiter.onFact; split <;> rfl

end Sys2Proof.Machine
end

