-- ==== Sys2Proof/Laws/Events.lean ====
section
/-!
SUPPORT. What one bay's event does to the state, said once for each shared operation: handing facts on, letting
a bay act, ending requests, and the events and expiries built from them.
-/

namespace Sys2Proof.Machine

/-! ### Handing facts on (R27) -/

@[simp] theorem State.handOn_bay (b c : BayNo) (s : State) (f : Fact) : (s.handOn b f).bay c = s.bay c := rfl
@[simp] theorem State.handOn_bays (b : BayNo) (s : State) (f : Fact) : (s.handOn b f).bays = s.bays := rfl
@[simp] theorem State.handOn_now (b : BayNo) (s : State) (f : Fact) : (s.handOn b f).now = s.now := rfl

/-- Handing a bay's facts on touches the arbiter and the ports alone, each taking the facts in order. -/
theorem State.handOn_all (b : BayNo) (fs : List Fact) (s : State) :
    fs.foldl (State.handOn b) s =
      { s with
        arbiter := fs.foldl (fun a f => a.onFact b f) s.arbiter
        portA := fs.foldl (fun u f => u.onFact b f) s.portA
        portB := fs.foldl (fun u f => u.onFact b f) s.portB } := by
  induction fs generalizing s with
  | nil => rfl
  | cons f fs ih => simp only [List.foldl_cons, ih]; rfl

/-- Letting a bay act: its own record becomes what its sequencer made of it, every other bay stands, and the
arbiter and the ports take its facts. -/
theorem Event.onBay_spec (b : BayNo) (f : Ctx → Work → Work) (e : Event) :
    let w := f e.st.ctx ⟨e.st.bay b, []⟩
    (e.onBay b f).facts = e.facts ++ w.facts.map (fun x => (b, x)) ∧
    (e.onBay b f).st =
      { e.st with
        bays := e.st.bays.set b w.bay
        arbiter := w.facts.foldl (fun a x => a.onFact b x) e.st.arbiter
        portA := w.facts.foldl (fun u x => u.onFact b x) e.st.portA
        portB := w.facts.foldl (fun u x => u.onFact b x) e.st.portB } := by
  refine ⟨rfl, ?_⟩
  simp only [Event.onBay, State.handOn_all]
  rfl

theorem Event.onBay_bay (b c : BayNo) (f : Ctx → Work → Work) (e : Event) :
    (e.onBay b f).st.bay c = if c = b then (f e.st.ctx ⟨e.st.bay b, []⟩).bay else e.st.bay c := by
  rw [(Event.onBay_spec b f e).2]
  exact Eight.get_set_eq _ _ _ _

@[simp] theorem Event.onBay_ctx (b : BayNo) (f : Ctx → Work → Work) (e : Event) :
    (e.onBay b f).st.ctx = e.st.ctx := by
  rw [(Event.onBay_spec b f e).2]; rfl

/-- What no bay's event reaches. -/
theorem Event.onBay_frame (b : BayNo) (f : Ctx → Work → Work) (e : Event) :
    ((e.onBay b f).st.now, (e.onBay b f).st.receiver, (e.onBay b f).st.motion, (e.onBay b f).st.shared,
        (e.onBay b f).st.store, (e.onBay b f).st.pending, (e.onBay b f).st.draws) =
      (e.st.now, e.st.receiver, e.st.motion, e.st.shared, e.st.store, e.st.pending, e.st.draws) := by
  rw [(Event.onBay_spec b f e).2]

/-- Letting several bays act reaches no more than one bay's event does. -/
theorem Event.onBays_frame (bs : List BayNo) (f : Ctx → Work → Work) (e : Event) :
    ((e.onBays bs f).st.now, (e.onBays bs f).st.receiver, (e.onBays bs f).st.motion,
        (e.onBays bs f).st.shared, (e.onBays bs f).st.store, (e.onBays bs f).st.pending,
        (e.onBays bs f).st.draws) =
      (e.st.now, e.st.receiver, e.st.motion, e.st.shared, e.st.store, e.st.pending, e.st.draws) := by
  induction bs generalizing e with
  | nil => rfl
  | cons b bs ih =>
    have h := ih (e.onBay b f)
    rw [Event.onBay_frame] at h
    exact h

@[simp] theorem Event.onBays_ctx (bs : List BayNo) (f : Ctx → Work → Work) (e : Event) :
    (e.onBays bs f).st.ctx = e.st.ctx := by
  have h := Event.onBays_frame bs f e
  simp only [Prod.mk.injEq] at h
  simp [State.ctx, h.1, h.2.2.1]

/-- Each bay of a list without repeats acts once, from the record it had; every other bay stands. -/
theorem Event.onBays_bay (bs : List BayNo) (f : Ctx → Work → Work) (e : Event) (h : bs.Nodup) (c : BayNo) :
    (e.onBays bs f).st.bay c = if c ∈ bs then (f e.st.ctx ⟨e.st.bay c, []⟩).bay else e.st.bay c := by
  induction bs generalizing e with
  | nil => rfl
  | cons b bs ih =>
    obtain ⟨hb, hn⟩ := List.nodup_cons.mp h
    have step : (e.onBays (b :: bs) f) = (e.onBay b f).onBays bs f := rfl
    rw [step, ih _ hn, Event.onBay_ctx, Event.onBay_bay]
    by_cases hc : c = b
    · subst hc; simp [hb]
    · simp [hc]

/-! ### The end of requests (R11, R163, R178, R180) -/

/-- Clearing the flag of an ended request touches one bay's flag, LED pattern, LED and LED timer at most. -/
theorem State.clearFlagAfter_spec (p : Port) (s : State) (r : Request) (e : Ending) :
    s.clearFlagAfter p r e = s ∨
      ∃ b, r.kind = .release b ∧ e.termination ≠ .complete ∧
        (∀ q ∈ (s.port p).outstanding, q.kind ≠ .release b) ∧
        s.clearFlagAfter p r e = s.setBay b (((s.bay b).setFlag p false).relight s.ctx) := by
  unfold State.clearFlagAfter
  split
  next b hk =>
    split
    · exact .inl rfl
    next h =>
      simp only [not_or, List.any_eq_true, decide_eq_true_eq, not_exists, not_and] at h
      exact .inr ⟨b, hk, h.1, h.2, rfl⟩
  · exact .inl rfl

theorem State.clearFlagAfter_frame (p : Port) (s : State) (r : Request) (e : Ending) :
    ∃ t : Eight Bay, s.clearFlagAfter p r e = { s with bays := t } := by
  obtain h | ⟨b, -, -, -, h⟩ := s.clearFlagAfter_spec p r e
  · exact ⟨s.bays, by rw [h]⟩
  · exact ⟨_, h⟩

theorem State.clearFlags_frame (p : Port) (ends : Request → Option Ending) (rs : List Request) (s : State) :
    ∃ t : Eight Bay,
      (rs.foldl (fun t r => match ends r with
        | some e => t.clearFlagAfter p r e
        | none => t) s) = { s with bays := t } := by
  induction rs generalizing s with
  | nil => exact ⟨s.bays, rfl⟩
  | cons r rs ih =>
    rw [List.foldl_cons]
    cases ends r with
    | none => exact ih s
    | some e =>
      obtain ⟨t, ht⟩ := s.clearFlagAfter_frame p r e
      obtain ⟨u, hu⟩ := ih (s.clearFlagAfter p r e)
      exact ⟨u, by rw [hu, ht]⟩

/-- Ending a port's requests touches that port's outstanding requests and completion queue, and the bays. -/
theorem State.endRequests_spec (p : Port) (ends : Request → Option Ending) (s : State) :
    ∃ t : Eight Bay,
      s.endRequests p ends =
        { s.setPort p
            { s.port p with
              outstanding := (s.port p).outstanding.filter fun r => (ends r).isNone
              completions := (s.port p).completions ++
                (s.port p).outstanding.filterMap fun r => (ends r).map (s.record r) } with
          bays := t } := by
  exact State.clearFlags_frame p ends _ _

/-- What the end of requests never reaches. -/
theorem State.endRequests_frame (p : Port) (ends : Request → Option Ending) (s : State) :
    ((s.endRequests p ends).now, (s.endRequests p ends).arbiter, (s.endRequests p ends).receiver,
        (s.endRequests p ends).motion, (s.endRequests p ends).shared, (s.endRequests p ends).store,
        (s.endRequests p ends).pending, (s.endRequests p ends).draws,
        (s.endRequests p ends).port p.peer) =
      (s.now, s.arbiter, s.receiver, s.motion, s.shared, s.store, s.pending, s.draws, s.port p.peer) := by
  obtain ⟨t, h⟩ := s.endRequests_spec p ends
  rw [h]
  cases p <;> rfl

/-- Where no outstanding request is ended, nothing happens. -/
theorem State.endRequests_none (p : Port) (ends : Request → Option Ending) (s : State)
    (h : ∀ r ∈ (s.port p).outstanding, ends r = none) : s.endRequests p ends = s := by
  have h1 : ((s.port p).outstanding.filter fun r => (ends r).isSome) = [] :=
    List.filter_eq_nil_iff.mpr fun r hr => by simp [h r hr]
  have h2 : ((s.port p).outstanding.filter fun r => (ends r).isNone) = (s.port p).outstanding :=
    List.filter_eq_self.mpr fun r hr => by simp [h r hr]
  have h3 : ((s.port p).outstanding.filterMap fun r => (ends r).map (s.record r)) = [] :=
    List.filterMap_eq_nil_iff.mpr fun r hr => by simp [h r hr]
  unfold State.endRequests
  simp only [h1, h2, h3, List.foldl_nil, List.append_nil]
  cases p <;> rfl

/-! ### Whole events -/

/-- What finishing an event never reaches. -/
theorem Event.finish_frame (e : Event) :
    (e.finish.now, e.finish.arbiter, e.finish.receiver, e.finish.motion, e.finish.shared, e.finish.store,
        e.finish.pending, e.finish.draws) =
      (e.st.now, e.st.arbiter, e.st.receiver, e.st.motion, e.st.shared, e.st.store, e.st.pending,
        e.st.draws) := by
  have h1 := (e.st.endRequests .a (eventEnding .a e.facts)).endRequests_frame .b (eventEnding .b e.facts)
  have h2 := e.st.endRequests_frame .a (eventEnding .a e.facts)
  simp only [Prod.mk.injEq] at h1 h2 ⊢
  unfold Event.finish
  exact ⟨h1.1.trans h2.1, h1.2.1.trans h2.2.1, h1.2.2.1.trans h2.2.2.1, h1.2.2.2.1.trans h2.2.2.2.1,
    h1.2.2.2.2.1.trans h2.2.2.2.2.1, h1.2.2.2.2.2.1.trans h2.2.2.2.2.2.1,
    h1.2.2.2.2.2.2.1.trans h2.2.2.2.2.2.2.1, h1.2.2.2.2.2.2.2.1.trans h2.2.2.2.2.2.2.2.1⟩

/-- With no fact handed on, an event ends no request. -/
theorem Event.finish_of_no_facts (s : State) : (Event.mk s []).finish = s := by
  unfold Event.finish
  rw [State.endRequests_none, State.endRequests_none] <;> intro r _ <;> rfl

/-- A bay's event in which its sequencer hands nothing on changes its record alone. -/
theorem State.bayEvent_of_no_facts (b : BayNo) (act : Ctx → Work → Work) (s : State)
    (h : (act s.ctx ⟨s.bay b, []⟩).facts = []) :
    s.bayEvent b act = s.setBay b (act s.ctx ⟨s.bay b, []⟩).bay := by
  have hs := Event.onBay_spec b act s.event
  simp only [State.event] at hs
  rw [h] at hs
  have he : s.event.onBay b act = ⟨s.setBay b (act s.ctx ⟨s.bay b, []⟩).bay, []⟩ := by
    cases hh : s.event.onBay b act with
    | mk st facts =>
      simp only [State.event] at hh
      rw [hh] at hs
      simp only [List.map_nil, List.append_nil] at hs
      rw [hs.1, hs.2]
      rfl
  unfold State.bayEvent
  rw [he, Event.finish_of_no_facts]

theorem State.bayEvent_frame (b : BayNo) (act : Ctx → Work → Work) (s : State) :
    ((s.bayEvent b act).now, (s.bayEvent b act).receiver, (s.bayEvent b act).motion,
        (s.bayEvent b act).shared, (s.bayEvent b act).store, (s.bayEvent b act).pending,
        (s.bayEvent b act).draws) =
      (s.now, s.receiver, s.motion, s.shared, s.store, s.pending, s.draws) := by
  have h1 := Event.finish_frame (s.event.onBay b act)
  have h2 := Event.onBay_frame b act s.event
  simp only [Prod.mk.injEq] at h1 h2 ⊢
  unfold State.bayEvent
  exact ⟨h1.1.trans h2.1, h1.2.2.1.trans h2.2.1, h1.2.2.2.1.trans h2.2.2.1,
    h1.2.2.2.2.1.trans h2.2.2.2.1, h1.2.2.2.2.2.1.trans h2.2.2.2.2.1,
    h1.2.2.2.2.2.2.1.trans h2.2.2.2.2.2.1, h1.2.2.2.2.2.2.2.trans h2.2.2.2.2.2.2⟩

/-- A timer that does not run does not expire; one that runs brings the clock to its due moment (log 2). -/
theorem State.bayExpiry_stopped (b : BayNo) (timer : Bay → Option Micros) (act : Ctx → Work → Work) (s : State)
    (h : timer (s.bay b) = none) : s.bayExpiry b timer act = s := by
  unfold State.bayExpiry; rw [h]

theorem State.bayExpiry_running (b : BayNo) (timer : Bay → Option Micros) (act : Ctx → Work → Work) (s : State)
    (due : Micros) (h : timer (s.bay b) = some due) :
    s.bayExpiry b timer act = (s.advanceTo due).bayEvent b act := by
  unfold State.bayExpiry; rw [h]

end Sys2Proof.Machine
end

