-- ==== Sys2Proof/Laws/Commands.lean ====
section
/-!
SUPPORT. What the shared operations of the port commands, the sequencer and the store do, each said once.
-/

namespace Sys2Proof.Machine

/-! ### The LED (R165) -/

/-- A recomputed LED shows the state's pattern, where its line followed the pattern it had. -/
theorem Bay.relight_ledFollowsState (c : Ctx) (x : Bay)
    (h : (match x.ledPattern with
      | .off => !x.led && x.ledTimer.isNone
      | .on => x.led && x.ledTimer.isNone
      | .slow | .fast => x.ledTimer.isSome) = true) :
    (x.relight c).ledFollowsState = true := by
  unfold Bay.relight
  split
  · rename_i hp
    simp only [Bay.ledFollowsState, Bool.and_eq_true]
    refine ⟨?_, h⟩
    rw [← hp]
    cases hs : x.state <;> simp [Bay.ledWanted, hs]
  · simp only [Bay.ledFollowsState, Bool.and_eq_true]
    constructor
    · cases hs : x.state <;> simp [Bay.ledWanted, hs]
    · cases x.ledWanted <;> simp [LedPattern.half]

/-! ### Taking and answering a command (R167, R170) -/

/-- An answer fixes the port's frame and nothing else. -/
theorem State.answer_spec (p : Port) (params : Nat) (code : AnswerCode) (data : List Byte) (clear : PendingClear)
    (s : State) :
    OnlyFrame p (.taken (s.port p).frame.status params (code.byte :: data) clear) s
      (s.answer p params code data clear) := by
  constructor <;> cases p <;> rfl

theorem State.reply_spec (p : Port) (params : Nat) (code : AnswerCode) (s : State) :
    OnlyFrame p (.taken (s.port p).frame.status params [code.byte] .nothing) s (s.reply p params code) :=
  s.answer_spec p params code [] .nothing

@[simp] theorem State.answer_now (p : Port) (params : Nat) (code : AnswerCode) (data : List Byte)
    (clear : PendingClear) (s : State) : (s.answer p params code data clear).now = s.now := by
  cases p <;> rfl

@[simp] theorem State.reply_now (p : Port) (params : Nat) (code : AnswerCode) (s : State) :
    (s.reply p params code).now = s.now := by
  cases p <;> rfl

/-- The data output carries a byte exactly while it is driven (R166). -/
@[simp] theorem Frame.outByte_isSome (f : Frame) (i : Nat) : (f.outByte i).isSome = f.driven := by
  cases f <;> rfl

/-- The output is driven exactly while a frame is in progress (R166). -/
theorem Frame.driven_iff (f : Frame) : f.driven = true ↔ f ≠ .idle := by
  cases f <;> simp [Frame.driven]

theorem State.starting_iff (s : State) : s.starting = true ↔ s.store.engine = .startup := by
  simp [State.starting]

/-- A command acts exactly when the part has started (R170). -/
theorem State.takeCommand_started (p : Port) (act : State → State) (s : State) (h : s.store.engine ≠ .startup) :
    s.takeCommand p act = act s := by
  simp [State.takeCommand, State.starting, h]

theorem State.takeCommand_starting (p : Port) (act : State → State) (s : State) (h : s.store.engine = .startup) :
    s.takeCommand p act = s.reply p 0 .starting := by
  simp [State.takeCommand, State.starting, h]

/-! ### Parameters (R171) -/

/-- A byte in range names its bay; every other is refused. -/
theorem bayOf_ofNat (b : BayNo) : bayOf (BitVec.ofNat 8 b.val) = some b := by
  fin_cases b <;> rfl

theorem bayOf_eq_none (n : Byte) (h : 8 ≤ n.toNat) : bayOf n = none := by
  simp [bayOf, Nat.not_lt.mpr h]

theorem sharedOf_eq (n : Byte) (i : Fin 8) (h : n.toNat = i.val) : sharedOf n = some i := by
  simp [sharedOf, h]

theorem sharedOf_eq_none (n : Byte) (h : 8 ≤ n.toNat) : sharedOf n = none := by
  simp [sharedOf, Nat.not_lt.mpr h]

theorem profileOf_ofNat (n : ProfileNo) : profileOf (BitVec.ofNat 8 n.val) = some (.working n) := by
  fin_cases n <;> rfl

theorem profileOf_eq_none (n : Byte) (h : 5 ≤ n.toNat) : profileOf n = none := by
  have h4 : ¬n.toNat < 4 := by omega
  have hne : ¬n = 4#8 := by rintro rfl; exact absurd h (by decide)
  simp [profileOf, h4, hne]

theorem recordOf_ofNat (n : ProfileNo) : recordOf (BitVec.ofNat 8 n.val) = some (.profile n) := by
  fin_cases n <;> rfl

theorem recordOf_eq_none (n : Byte) (h : 5 ≤ n.toNat) : recordOf n = none := by
  have h4 : ¬n.toNat < 4 := by omega
  have hne : ¬n = 4#8 := by rintro rfl; exact absurd h (by decide)
  simp [recordOf, h4, hne]

theorem levelOf_rank (d : Demand) : levelOf (BitVec.ofNat 8 d.rank) = d := by
  cases d <;> rfl

theorem mem_maskBays (mask : Byte) (b : BayNo) : b ∈ maskBays mask ↔ mask.getLsbD b.val = true := by
  simp [maskBays]

theorem maskBays_nodup (mask : Byte) : (maskBays mask).Nodup :=
  List.Nodup.filter _ (by decide)

/-! ### Entries of the sequencer (R27) -/

@[simp] theorem Work.edit_bay (f : Bay → Bay) (w : Work) : (w.edit f).bay = f w.bay := rfl
@[simp] theorem Work.edit_facts (f : Bay → Bay) (w : Work) : (w.edit f).facts = w.facts := rfl

@[simp] theorem Work.enter_bay (c : Ctx) (st : BayState) (w : Work) :
    (w.enter c st).bay = (w.bay.entering c st).relight c := rfl

@[simp] theorem Work.enter_facts (c : Ctx) (st : BayState) (w : Work) :
    (w.enter c st).facts = w.facts ++ (if w.bay.state = .empty then [.leftEmpty] else []) ++ [.entered st] := rfl

@[simp] theorem Work.toFaulted_state (c : Ctx) (kind : FaultKind) (keep : Bool) (w : Work) :
    (w.toFaulted c kind keep).bay.state = .faulted := by
  simp [Work.toFaulted]

@[simp] theorem Work.toFaulted_fault (c : Ctx) (kind : FaultKind) (keep : Bool) (w : Work) :
    (w.toFaulted c kind keep).bay.fault = some kind := rfl

@[simp] theorem Work.toRetracting_state (c : Ctx) (cause : Cause) (w : Work) :
    (w.toRetracting c cause).bay.state = .retracting := by
  simp [Work.toRetracting]

@[simp] theorem Work.toRetracting_cause (c : Ctx) (cause : Cause) (w : Work) :
    (w.toRetracting c cause).bay.cause = some cause := rfl

@[simp] theorem Work.toReleased_state (c : Ctx) (w : Work) : (w.toReleased c).bay.state = .released := by
  simp [Work.toReleased]

@[simp] theorem Work.toQueued_state (c : Ctx) (w : Work) : (w.toQueued c).bay.state = .queued := by
  simp [Work.toQueued]

@[simp] theorem Work.toReady_state (c : Ctx) (w : Work) : (w.toReady c).bay.state = .ready := by
  simp [Work.toReady]

@[simp] theorem Work.toEmpty_state (c : Ctx) (w : Work) : (w.toEmpty c).bay.state = .empty := by
  simp [Work.toEmpty]

/-- The test made at rest leaves a bay RELEASED, QUEUED or as it was (R31, R159). -/
theorem Work.idleTest_cases (c : Ctx) (w : Work) :
    (w.bay.releaseCondition = true ∧ w.idleTest c = w.toReleased c) ∨
    (w.bay.releaseCondition = false ∧ w.bay.joins = true ∧ w.idleTest c = w.toQueued c) ∨
    (w.bay.releaseCondition = false ∧ w.bay.joins = false ∧ w.idleTest c = w) := by
  unfold Work.idleTest
  cases h1 : w.bay.releaseCondition <;> cases h2 : w.bay.joins <;> simp

/-- SPUN is left for SPINNING_DOWN or LOADING, or kept with its dwell timer aimed (R40). -/
theorem Work.spunTest_cases (c : Ctx) (w : Work) :
    (w.bay.mustSpinDown c = true ∧ w.spunTest c = w.toSpinningDown c false) ∨
    (w.bay.mustSpinDown c = false ∧ w.bay.mayLoad c = true ∧ w.spunTest c = w.toLoading c) ∨
    (w.bay.mustSpinDown c = false ∧ w.bay.mayLoad c = false ∧ w.spunTest c = w.edit (Bay.aimDwell c)) := by
  unfold Work.spunTest
  cases h1 : w.bay.mustSpinDown c <;> cases h2 : w.bay.mayLoad c <;> simp

/-- An entry to SPINNING_DOWN stays there, or goes on to rest where the spindle is known to be at rest and no
unload watch runs (R43, R72). -/
theorem Work.toSpinningDown_cases (c : Ctx) (mayWatch : Bool) (w : Work) :
    let v := ((w.edit (Bay.dropSpin c)).enter c .spinningDown).edit (Bay.startSpindown c mayWatch)
    (v.bay.restMark = true ∧ v.bay.unloadWatch = none ∧ w.toSpinningDown c mayWatch = v.toIdle c) ∨
    (¬(v.bay.restMark = true ∧ v.bay.unloadWatch = none) ∧ w.toSpinningDown c mayWatch = v) := by
  intro v
  by_cases h : v.bay.restMark = true ∧ v.bay.unloadWatch = none
  · exact .inl ⟨h.1, h.2, by simp only [Work.toSpinningDown]; rw [if_pos]; simp [v] at h ⊢; simp [h]; exact h.2⟩
  · refine .inr ⟨h, ?_⟩
    simp only [Work.toSpinningDown]
    rw [if_neg]
    intro hh
    exact h (by simpa [v] using hh)

/-! ### The settings store (R187, R191) -/

/-- A clamped value lies in its range. -/
theorem clampTo_bounds (lo hi x : Nat) (h : lo ≤ hi) : lo ≤ clampTo lo hi x ∧ clampTo lo hi x ≤ hi := by
  unfold clampTo; omega

/-- A value in range is not changed by clamping. -/
theorem clampTo_of_mem (lo hi x : Nat) (h1 : lo ≤ x) (h2 : x ≤ hi) : clampTo lo hi x = x := by
  unfold clampTo; omega

theorem Profile.clamped_inRange (field : Nat → Nat) : (Profile.clamped field).inRange = true := by
  simp [Profile.inRange, inBounds, Profile.clamped, Profile.fields, profileBounds, clampTo]

theorem CaseSettings.clamped_inRange (field : Nat → Nat) : (CaseSettings.clamped field).inRange = true := by
  simp [CaseSettings.inRange, inBounds, CaseSettings.clamped, CaseSettings.fields, caseBounds, clampTo]

theorem builtIn_inRange : builtInProfile.inRange = true ∧ builtInCase.inRange = true := by
  decide

/-- A working copy holds its record's contents or the built-in values (R191). -/
theorem Stored.install_spec {α : Type} (builtIn : α) (r : Stored α) :
    r.install builtIn =
      if r.valid then { values := r.contents, fromRecord := true } else { values := builtIn, fromRecord := false } :=
  rfl

theorem Store.installAll_loads (st : Store) : st.loadedFrom st.installAll := by
  refine ⟨fun n => ?_, rfl, rfl⟩
  simp [Store.installAll, Stored.install]

/-! ### Part reset (R57, R184) -/

@[simp] theorem State.bay_holdReset (s : State) (b : BayNo) : s.holdReset.bay b = (s.bay b).inReset := by
  fin_cases b <;> rfl

@[simp] theorem State.bay_endReset (s : State) (b : BayNo) : s.endReset.bay b = (s.bay b).afterReset := by
  fin_cases b <;> rfl

/-- The end of reset samples the raw levels, which reset leaves as they are. -/
@[simp] theorem Bay.afterReset_inReset (x : Bay) : x.inReset.afterReset = x.afterReset := rfl

@[simp] theorem State.port_holdReset (s : State) (p : Port) : s.holdReset.port p = PortUnit.inReset := by
  cases p <;> rfl

@[simp] theorem State.port_endReset (s : State) (p : Port) : s.endReset.port p = PortUnit.reset := by
  cases p <;> rfl

@[simp] theorem PortUnit.inReset_noticeLine : PortUnit.inReset.noticeLine = false := rfl

@[simp] theorem PortUnit.reset_noticeLine : PortUnit.reset.noticeLine = true := rfl

@[simp] theorem State.bay_partReset (s : State) (b : BayNo) : s.partReset.bay b = (s.bay b).afterReset := by
  simp [State.partReset]

@[simp] theorem State.port_partReset (s : State) (p : Port) : s.partReset.port p = PortUnit.reset := by
  simp [State.partReset]

/-! ### The gap (R105) -/

/-- The gap timer runs exactly while fewer than GRANT_GAP ms have passed since the last grant. -/
theorem gapTimerFor_isSome (now : Micros) (last : Option Millis) (gap : Millis) :
    (gapTimerFor now last gap).isSome = true ↔ ∃ t, last = some t ∧ millis now - t < gap := by
  cases last with
  | none => simp [gapTimerFor]
  | some t => by_cases h : millis now - t < gap <;> simp [gapTimerFor, h]

/-! ### The sensor's path (R132 to R135) -/

/-- The update of V never passes the largest deviation's fixed point (R135). -/
theorem vibNext_le (k v d : Nat) (hv : v ≤ 53344) (hd : d ≤ 3334) : vibNext k v d ≤ 53344 := by
  unfold vibNext
  have hmono : 16 * d / 2 ^ k ≤ 53344 / 2 ^ k := Nat.div_le_div_right (by omega)
  have hpos : 0 < 2 ^ k := Nat.two_pow_pos k
  have hw : 53344 / 2 ^ k ≤ v / 2 ^ k + (53344 - v) := by
    rw [← Nat.add_mul_div_left v (53344 - v) hpos]
    refine Nat.div_le_div_right ?_
    have h := Nat.le_mul_of_pos_left (53344 - v) hpos
    omega
  have h5 : v / 2 ^ k ≤ v := Nat.div_le_self _ _
  omega

end Sys2Proof.Machine
end

