-- ==== Sys2Proof/Laws/Line.lean ====
section
/-!
SUPPORT. The sampling of MRX (R117): runs of samples may be cut anywhere, every sample keeps the receiver's place in a
character within its bounds, and what sampling does to the State, said once for each of its two outcomes.
-/

namespace Sys2Proof.Machine

theorem LinePhase.after_append (l m : List Bool) (ph : LinePhase) : ph.after (l ++ m) = (ph.after l).after m :=
  List.foldl_append

/-- Samples may be cut between two events at any place: the facts and the phase are those of the whole run. -/
theorem LinePhase.facts_append (l m : List Bool) (ph : LinePhase) :
    ph.facts (l ++ m) = ph.facts l ++ (ph.after l).facts m := by
  induction l generalizing ph with
  | nil => rfl
  | cons level l ih => simp [LinePhase.facts, LinePhase.after, ih]

theorem takeSample_lt (bit sample n : Nat) (level : Bool) (taken : BitVec 33) (h : taken.toNat < 2 ^ n)
    (hn : 7 ≤ sample → sample ≤ 9 → 3 * bit + (sample - 7) < n) :
    (takeSample bit sample level taken).toNat < 2 ^ n := by
  unfold takeSample
  split
  · rename_i hc
    simp only [Bool.and_eq_true, decide_eq_true_eq] at hc
    rw [BitVec.toNat_or, BitVec.toNat_ofNat]
    exact Nat.or_lt_two_pow h
      (lt_of_le_of_lt (Nat.mod_le _ _) (Nat.pow_lt_pow_right (by decide) (hn hc.1.2 hc.2)))
  · exact h

/-- A sample of a later bit leaves the start bit as it was decided. -/
theorem charBit_takeSample (bit sample : Nat) (level : Bool) (taken : BitVec 33) (h : 0 < bit ∨ 9 < sample) :
    charBit (takeSample bit sample level taken) 0 = charBit taken 0 := by
  unfold takeSample
  split
  · rename_i hc
    simp only [Bool.and_eq_true, decide_eq_true_eq] at hc
    have hb : 0 < bit := h.resolve_right (by omega)
    have hk : ∀ j < 3, (BitVec.ofNat 33 (2 ^ (3 * bit + (sample - 7)))).getLsbD j = false := by
      intro j hj
      rw [BitVec.getLsbD_ofNat, Nat.testBit_two_pow]
      simp; omega
    generalize BitVec.ofNat 33 (2 ^ (3 * bit + (sample - 7))) = kept at hk
    simp only [charBit, charSample, BitVec.getLsbD_or, Nat.mul_zero, Nat.zero_add, hk 0 (by omega), hk 1 (by omega),
      hk 2 (by omega), Bool.or_false]
  · rfl

/-- A sample keeps the receiver's place in a character within its bounds. -/
theorem LinePhase.sample_inBounds (level : Bool) (ph : LinePhase) (h : ph.inBounds = true) :
    (ph.sample level).1.inBounds = true := by
  cases ph with
  | hunt armed => cases armed <;> cases level <;> rfl
  | inCharacter bit sample taken =>
    simp only [LinePhase.inBounds, Bool.and_eq_true, Bool.or_eq_true, decide_eq_true_eq, Bool.not_eq_true'] at h
    obtain ⟨⟨⟨⟨⟨hb, h1⟩, h16⟩, hstop⟩, hstart⟩, hlt⟩ := h
    simp only [LinePhase.sample, LinePhase.taking]
    by_cases hs : sample < 16
    · rw [if_pos hs]
      split
      · rfl
      · rename_i hdip
        split
        · rfl
        · rename_i hend
          simp only [Bool.and_eq_true, decide_eq_true_eq, not_and, Bool.not_eq_true] at hdip hend
          have hkeep : 0 < bit ∨ 9 < sample + 1 → charBit taken 0 = false →
              charBit (takeSample bit (sample + 1) level taken) 0 = false := fun hc h0 => by
            rw [charBit_takeSample _ _ _ _ hc, h0]
          have hbound : (takeSample bit (sample + 1) level taken).toNat < 2 ^ (3 * bit + min 3 (sample + 1 - 6)) :=
            takeSample_lt _ _ _ _ _ (lt_of_lt_of_le hlt (Nat.pow_le_pow_right (by decide) (by omega)))
              (fun _ _ => by omega)
          simp only [LinePhase.inBounds, Bool.and_eq_true, Bool.or_eq_true, decide_eq_true_eq, Bool.not_eq_true']
          refine ⟨⟨⟨⟨⟨hb, by omega⟩, by omega⟩, ?_⟩, ?_⟩, hbound⟩
          · by_cases h9 : sample + 1 = 9
            · exact Or.inl (hend h9)
            · exact hstop.imp_right fun _ => by omega
          · by_cases h0 : bit = 0
            · by_cases h9 : sample + 1 < 9
              · exact Or.inl ⟨h0, h9⟩
              · refine Or.inr ?_
                by_cases he : sample + 1 = 9
                · exact hdip ⟨he, h0⟩
                · exact hkeep (Or.inr (by omega)) (hstart.resolve_left fun hc => by omega)
            · exact Or.inr (hkeep (Or.inl (by omega)) (hstart.resolve_left fun hc => h0 hc.1))
    · rw [if_neg hs]
      have h0 := hstart.resolve_left fun hc => by omega
      have hten : bit ≠ 10 := fun hc => (hstop.resolve_left (not_not_intro hc)).not_ge (by omega)
      simp only [show (decide (1 = 9)) = false from rfl, Bool.false_and, Bool.false_eq_true, if_false,
        LinePhase.inBounds, Bool.and_eq_true, Bool.or_eq_true, decide_eq_true_eq, Bool.not_eq_true']
      refine ⟨⟨⟨⟨⟨by omega, by omega⟩, by omega⟩, Or.inr (by omega)⟩, Or.inr h0⟩, ?_⟩
      exact lt_of_lt_of_le hlt (Nat.pow_le_pow_right (by decide) (by omega))

theorem LinePhase.after_inBounds (line : List Bool) (ph : LinePhase) (h : ph.inBounds = true) :
    (ph.after line).inBounds = true := by
  induction line generalizing ph with
  | nil => exact h
  | cons level line ih => exact ih _ (ph.sample_inBounds level h)

/-- What sampling does where it finishes no character (R117): it moves the line phase and the level last seen. -/
theorem State.sampleLine_of_no_character (line : List Bool) (s : State)
    (h : ∀ x ∈ s.receiver.linePhase.facts line, x = .falseStart) :
    s.sampleLine line =
      s.editReceiver fun r => { r with linePhase := r.linePhase.after line, mrx := line.getLastD r.mrx } := by
  unfold State.sampleLine
  generalize s.editReceiver _ = t
  generalize s.receiver.linePhase.facts line = facts at h
  induction facts with
  | nil => rfl
  | cons x facts ih =>
    obtain rfl := h x (List.mem_cons_self ..)
    exact ih fun y hy => h y (List.mem_cons_of_mem _ hy)

/-- What sampling does where it finishes one character (R117, R118). -/
theorem State.sampleLine_of_character (line : List Bool) (samples : BitVec 33) (s : State)
    (h : s.receiver.linePhase.facts line = [.finished samples]) :
    s.sampleLine line =
      ((s.editReceiver fun r =>
        { r with linePhase := r.linePhase.after line, mrx := line.getLastD r.mrx }).character samples).finish := by
  simp only [State.sampleLine, h, List.foldl_cons, List.foldl_nil, State.takeFact]

end Sys2Proof.Machine
end

