-- ==== Sys2Proof/Tests/Slice0.lean ====
section
/-!
SUPPORT. Tests: well-formedness, the spec's worked figures, and for every statement a state and operands that meet
its hypotheses, with one effect of the event on them. All are single events on small states.
-/

namespace Sys2Proof.Tests

open Sys2Proof Sys2Proof.Machine

/-! ### Small states -/

/-- The next state of an outcome meets a test. -/
def nextIs (o : Host.Outcome State Fault Refusal) (test : State → Bool) : Bool :=
  match o with
  | .next t => test t
  | _ => false

/-- The part after its start-up load, every bay empty. -/
def started : State := (State.reset.advance 300).completeStartup

/-- A bay with a carrier, in a state with SPIN deasserted. -/
def atRest (st : BayState) : Bay :=
  { Bay.reset with prs := true, present := true, prkOn := true, prk := true, state := st, quietTimer := some 9000 }

/-- A bay with a carrier whose spindle is powered, demanded at LOAD. -/
def powered (st : BayState) : Bay :=
  { atRest st with spin := true, demandA := .load, absenceTimer := some 20000, reference := some 300 }

def spun : Bay := { powered .spun with dwellTimer := some 7000, lastPark := some 0 }
def spinningUp : Bay := { powered .spinningUp with spinupTimer := some 8000 }
def spinningDown : Bay := { atRest .spinningDown with spindownTimer := some 8000 }
def loading (phase : Phase) (timer : HeadTimer) : Bay :=
  { powered .loading with
    hld := phase ≠ .withdraw, phase := some phase, headTimer := some (timer, 6000), prkOn := phase = .seek }
def ready : Bay := { powered .ready with hld := true, prkOn := false }
def unloading : Bay := { powered .unloading with prkOn := false, headTimer := some (.unload, 6000) }
def retracting (cause : Cause) : Bay :=
  { powered .retracting with
    cause := some cause, rtr := true, pulseTimer := some 5000, headTimer := some (.retract, 6000) }
def faulted (kind : FaultKind) : Bay := { atRest .faulted with fault := some kind }
def queued : Bay := { atRest .queued with demandB := .spin }

/-- The bay with the LED that its state shows (R165). -/
def lit (x : Bay) : Bay := x.relight started.ctx

/-- The started part with one bay of its own, the motion state QUIET. -/
def withBay (x : Bay) : State :=
  let s := started.setBay 3 (lit x)
  { s with
    motion := { s.motion with state := .quiet }
    arbiter := { s.arbiter with queue := if x.state = .queued then [3] else [] } }

/-- The state meets every invariant. -/
def isSound (s : State) : Bool := decide s.sound

/-- A request outstanding on port A. -/
def withRequest (kind : RequestKind) (due : Option Micros) (s : State) : State :=
  { s with portA := { s.portA with outstanding := [{ tag := 7, kind := kind, accepted := 0, due := due }] } }

/-- A sensor frame open on the receiver. -/
def withFrame (header : Nat) (axes : List Nat) (s : State) : State :=
  { s with receiver := { s.receiver with openFrame := some { header := header, axes := axes } } }

/-- A line at 1 and then a character with these deciding samples, up to the one that finishes it; its other samples
are at 0. -/
def lineOf (samples : BitVec 33) : List Bool :=
  true :: (List.range 169).map fun n =>
    6 ≤ n % 16 && n % 16 ≤ 8 && samples.getLsbD (3 * (n / 16) + (n % 16 - 6))

/-- The receiver one sample before the end of a character with these deciding samples. -/
def atStop (samples : BitVec 33) (s : State) : State :=
  { s with receiver := { s.receiver with linePhase := .inCharacter 10 8 (samples &&& BitVec.ofNat 33 (2 ^ 32 - 1)) } }

/-- That state meets every invariant, and the last sample finishes the character. -/
def hears (samples : BitVec 33) (s : State) : Bool :=
  isSound (atStop samples s) &&
    (atStop samples s).receiver.linePhase.facts [samples.getLsbD 32] = [.finished samples]

/-- The event of the sample that finishes that character. -/
def finishes (samples : BitVec 33) (s : State) : Host.Outcome State Fault Refusal :=
  exec (.characterFinished 0 [samples.getLsbD 32]) (atStop samples s)

/-- A line at 1 that dips for three samples, up to the sample 9 that decides the start bit 1. -/
def dip : List Bool := [true, false, false, false, true, true, true, true, true, true]

/-- Every slot of port A in use. -/
def withFullSlots (s : State) : State :=
  { s with
    portA := { s.portA with
      completions := List.replicate 8
        { tag := 1, kind := .wait, termination := .complete, reason := .none, bay := none, bayState := none
          elapsed := 0 } } }

/-! ### Well-formedness -/

theorem test_short_profile_contents_refused :
    wellFormed (.writeRecord 0 .a 1 0 0 (List.replicate 31 0)) = false := by decide
theorem test_case_contents_of_a_profile_refused :
    wellFormed (.writeRecord 0 .a 1 0 0 (List.replicate 42 0)) = false := by decide
set_option maxRecDepth 8000 in
theorem test_line_without_its_stop_bit_refused :
    wellFormed (.characterFinished 0 (lineOf (wireCharacter 0xA5 true true)).dropLast) = false := by decide
theorem test_dip_as_a_character_refused : wellFormed (.characterFinished 0 dip) = false := by decide
set_option maxRecDepth 8000 in
theorem test_character_as_a_dip_refused :
    wellFormed (.mrxFalseStart ⟨0, lineOf (wireCharacter 0xA5 true true)⟩) = false := by decide
theorem test_dip_that_goes_on_refused : wellFormed (.mrxFalseStart ⟨0, dip ++ [true]⟩) = false := by decide
set_option maxRecDepth 8000 in
theorem test_well_formed_terms :
    wellFormed (.writeRecord 0 .a 1 4 0 (List.replicate 42 0)) = true ∧
      wellFormed (.characterFinished 0 (lineOf (wireCharacter 0xA5 true true))) = true ∧
      wellFormed (.mrxFalseStart ⟨0, dip⟩) = true := by decide

/-! ### Frames as bytes (12, Codes; R166, R167, R175) -/

theorem test_frame_set_demand :
    readFrame 0 .b false false true [0x11, 0x81, 0x02] = .taken (.setDemand 0 .b 0x81 2) := by decide
theorem test_frame_wait_bay :
    readFrame 0 .a false false true [0x61, 9, 3, 2, 0x12, 0x34] = .taken (.waitBay 0 .a 9 3 2 0x1234) := by decide
theorem test_frame_cut_short :
    readFrame 0 .a false false true [0x42, 1, 0xAB] = .partialFrame := by decide
theorem test_frame_unknown_code :
    readFrame 0 .a false false true [0x99] = .taken (.unknownCommand 0 .a) := by decide
theorem test_frame_while_starting :
    readFrame 0 .a true false true [0x21] = .taken (.startingFrame 0 .a) := by decide

/-! ### Worked figures of the spec -/

/-- The magnitude figures under R132. -/
theorem test_magnitude_figures :
    [magnitude 0 0 250, magnitude 177 0 177, magnitude 144 144 144, magnitude (-37) 212 141,
      magnitude 10 (-20) 30, magnitude 2047 2047 2047, magnitude (-2048) (-2048) (-2048)] =
    [250, 243, 252, 278, 41, 3582, 3584] := by decide

/-- The band of P_NOM 8333 and TOL 5 under R63 is 8171 to 8495 µs. -/
theorem test_band_figures :
    let p := { builtInProfile with tol := 5 }
    [p.inBand 8170, p.inBand 8171, p.inBand 8495, p.inBand 8496] = [false, true, true, false] := by decide

/-- The default profile's band, 8073 to 8593 µs, and glitch threshold, 2083 µs (R60, R63). -/
theorem test_default_band :
    [builtInProfile.inBand 8072, builtInProfile.inBand 8073, builtInProfile.inBand 8593,
      builtInProfile.inBand 8594] = [false, true, true, false] ∧ builtInProfile.glitch = 2083 := by decide

/-- A stamp that wrapped is measured across the wrap (R62). -/
theorem test_period_across_the_wrap : stampSince 100 (16777216 - 8233) = 8333 := by decide

/-- Axis values in two's complement; the upper four bits of the high character are ignored (R123). -/
theorem test_axis_values :
    [axisValue 0xFA 0x00, axisValue 0xFF 0x07, axisValue 0x00 0x08, axisValue 0xFF 0xFF] =
      [250, 2047, -2048, -1] := by decide

/-- The largest deviation's fixed point of R135. -/
theorem test_vibration_fixed_point : vibNext 5 53344 3334 = 53344 ∧ vibNext 1 53344 3334 = 53344 := by decide

/-- Clamping to the nearest bound (R187). -/
theorem test_clamping :
    (profileFromBytes (List.replicate 32 0)).fields.take 3 = [4000, 1, 1] ∧
      (profileFromBytes (List.replicate 32 0xFF)).fields.take 3 = [20000, 64, 64] := by decide

/-- What a clean character is read as (R117, R118). -/
theorem test_wire_character :
    charValue (wireCharacter 0xA5 true true) = 0xA5 ∧ charMarked (wireCharacter 0xA5 true true) = true ∧
      charMarked (wireCharacter 0xA5 false true) = false ∧ charNoisy (wireCharacter 0xA5 false true) = false ∧
      charNoisy 0b1000 = true := by decide

/-- Nothing is picked where nothing is spelled: no word of the table is a command (log 22). -/
theorem test_no_word_is_a_command : State.reset.withFetchWord 8 0x11 = State.reset := rfl

/-! ### Witnesses: steps and invariants -/

theorem witness_StepTakesTheFrontEvent :
    State.reset.pending = [] ∧ (started.withPending [.partReset, .reloadEnd]).pending = .partReset :: [.reloadEnd] := by
  decide

/-- A part at work: one bay in each of eight states, a release outstanding. -/
def busy : State :=
  let s := { started with
    bays := ⟨spun, loading .seek .load, ready, lit { unloading with demandA := .stop, flagA := true },
      retracting .alarm, spinningDown, lit (faulted .headsStuck), queued⟩
    motion := { started.motion with state := .quiet }
    arbiter := { started.arbiter with queue := [7], evalOwed := true } }
  withRequest (.release 3) (some 60000) { s with pending := [.grantEvaluation 5] }

theorem witness_StepKeepsTheSpinUpQueue :
    busy.queueMatches ∧ nextIs (step busy) (fun t => t.arbiter.queue = []) := by decide
theorem witness_StepKeepsSlotsAndTags : busy.slotsHold ∧ nextIs (step busy) (fun _ => true) := by decide
theorem witness_StepKeepsSettingsInRange :
    busy.settingsInRange ∧ nextIs (step busy) (fun t => t.arbiter.limit = 160) := by decide
theorem witness_StepKeepsMotionInBounds : busy.motionInBounds ∧ nextIs (step busy) (fun _ => true) := by
  decide
theorem witness_StepKeepsReleases :
    busy.statesAllowed ∧ busy.releasesHold ∧ nextIs (step busy) (fun t => (t.bay 3).flagA) := by decide

/-- The bay's FAULTED entry ends a WAIT BAY for READY, its opening ejector another, the port's raised demand a RELEASE
BAY; a request of another bay stays (R163, R180). -/
theorem witness_RequestsEndWithTheBay :
    let ended := fun (o : Host.Outcome State Fault Refusal) (r : Reason) =>
      nextIs o (fun t => t.portA.completions.map Completion.reason = [r] && t.portA.outstanding = [])
    let lost := withRequest (.wait 3 .load) (some 60000) (withBay { spun with outRun := 3 })
    let opened := withRequest (.wait 3 .load) (some 60000) (withBay { spun with ejc := true, ejcTimer := some 50000 })
    let apart := withRequest (.wait 2 .stop) none (withBay { spun with outRun := 3 })
    isSound lost ∧ isSound opened ∧ isSound busy ∧
      actsOnSlots .a (.absenceTimerExpiry 3) = false ∧ actsOnSlots .a (.ejcSettleExpiry 3) = false ∧
      actsOnSlots .a (.setDemand 0 .a 8 1) = false ∧
      ended (exec (.absenceTimerExpiry 3) lost) .fault ∧ ended (exec (.ejcSettleExpiry 3) opened) .ejected ∧
      ended (exec (.setDemand 0 .a 8 1) busy) .demandRaised ∧
      nextIs (exec (.absenceTimerExpiry 3) apart) (fun t => t.portA.outstanding = apart.portA.outstanding) := by
  decide
theorem witness_StepKeepsLinesWithState :
    (∀ b, (busy.bay b).detailsFollowState = true ∧ (busy.bay b).linesFollowState = true ∧
      (busy.bay b).ledFollowsState = true) ∧ nextIs (step busy) (fun t => (t.bay 7).spin) := by decide
theorem witness_StepKeepsTimersWithState :
    (∀ b, (busy.bay b).timersFollowState = true) ∧
      nextIs (step busy) (fun t => (t.bay 7).spinupTimer = some 20000305) := by decide
theorem witness_StepKeepsTheSpeedMonitors :
    busy.queueMatches ∧ (∀ b, (busy.bay b).monitorHolds = true) ∧
      nextIs (step busy) (fun t => (t.bay 7).absenceTimer = some 16971) := by decide
theorem witness_StepKeepsStatesAllowed :
    busy.statesAllowed ∧ nextIs (step busy) (fun t => (t.bay 7).state = .spinningUp) := by decide

theorem witness_SpinRisesOnlyAtAGrant :
    (∀ dt, Instr.selectFall 0 .a ≠ .grantEvaluation dt) ∧ (busy.bay 7).spin = false ∧
      nextIs (exec (.selectFall 0 .a) busy) (fun _ => true) = true :=
  ⟨fun _ => (by simp), by decide, by decide⟩

/-- A grant with the draw at 3 × RUN + 2 × RUN = 60 and 40 more of SURGE (R101, R109). -/
theorem witness_GrantsFitTheLimit :
    busy.queueMatches ∧ (busy.bay 7).state ≠ .spinningUp ∧
      busy.settingsInRange ∧ isSound busy ∧
      nextIs (exec (.grantEvaluation 5) busy)
        (fun t => (t.bay 7).state = .spinningUp && busy.draw = 60 && t.draw = 100) := by decide

/-- Each clause of R5's statement: a written column, an emptied bay, and a level and a STOP of the port's own. -/
theorem witness_NeitherPortWritesThePeersColumn :
    let removed := withBay { ready with prs := false, prsTimer := some 50000 }
    Instr.setDemand 0 .b 8 1 ≠ .partReset ∧
      nextIs (exec (.setDemand 0 .b 8 1) busy) (fun t => (t.bay 3).demandB = .spin && (t.bay 3).demandA = .stop) ∧
      (removed.bay 3).state ≠ .empty ∧
      nextIs (exec (.prsSettleExpiry 3) removed) (fun t => (t.bay 3).state = .empty && (t.bay 3).demandA = .stop) ∧
      busy.store.engine ≠ .startup ∧ (busy.bay 2).present = true ∧ (busy.bay 2).state ≠ .empty ∧
      busy.portA.outstanding.length + busy.portA.completions.length < 8 ∧
      (∀ r ∈ busy.portA.outstanding, r.tag ≠ 8) ∧
      nextIs (exec (.releaseBay 0 .a 8 2 5) busy) (fun t => (t.bay 2).demandA = .stop) := by decide

/-- A grant writes the snapshot, a removal takes it away, a load writes the working copies. -/
theorem witness_SettingsChangeOnlyWhereSaid :
    let removed := withBay
      { ready with prs := false, prsTimer := some 50000, snapshot := some ⟨.builtIn, builtInProfile⟩ }
    (busy.bay 7).snapshot = none ∧
      nextIs (exec (.grantEvaluation 5) busy)
        (fun t => (t.bay 7).snapshot = some ⟨.profile 0, (busy.store.workingProfiles.get 0).values⟩) ∧
      (removed.bay 3).state ≠ .empty ∧
      nextIs (exec (.prsSettleExpiry 3) removed) (fun t => (t.bay 3).snapshot = none) ∧
      State.reset.store.engine = .startup ∧ (State.reset.store.profiles.get 1).valid = true ∧
      (State.reset.store.workingProfiles.get 1).fromRecord = false ∧
      nextIs (exec (.startupLoadComplete 300) State.reset)
        (fun t => (t.store.workingProfiles.get 1).fromRecord) := by decide

/-! ### Witnesses: port frames and commands -/

theorem witness_StartingRefusesEveryCommand :
    State.reset.store.engine = .startup ∧ commandSender (.readCase 5 .b) = some (5, .b) := by decide

/-- Byte values at the edges of their ranges: 8 for a bay or a word, 5 for a profile or a record (R171). -/
theorem witness_RefusedFramesHaveNoEffect :
    started.store.engine ≠ .startup ∧
      nextIs (exec (.readBay 0 .a 8) started) (fun t => t.portA.frame.outByte 2 = some 0xA2) ∧
      nextIs (exec (.writeShared 0 .a 8 1) started) (fun t => t.portA.frame.outByte 4 = some 0xA2) ∧
      nextIs (exec (.readProfile 0 .a 5) started) (fun t => t.portA.frame.outByte 2 = some 0xA2) ∧
      nextIs (exec (.unknownCommand 0 .a) started) (fun t => t.portA.frame.outByte 1 = some 0xA1) := by decide

theorem witness_StartedPart :
    started.store.engine ≠ .startup ∧ busy.store.engine ≠ .startup ∧ isSound busy := by decide

/-- READ BAY of a loading bay: state code 5, LOAD from port A alone, SPIN's run code (12). -/
theorem witness_ReadBayReportsTheRecord :
    busy.store.engine ≠ .startup ∧
      nextIs (exec (.readBay 0 .a 1) busy)
        (fun t => t.portA.frame.outByte 3 = some 5 && t.portA.frame.outByte 4 = some 0x22) := by decide

/-- A hold reason from each of R21 to R24, and each of the first's in its order. -/
theorem test_hold_reasons :
    let reason := fun (x : Bay) => (withBay x).holdReason 3
    let blind := fun (x : Bay) => { withBay x with motion := { started.motion with state := .blind } }.holdReason 3
    let close := { withBay queued with arbiter := { (withBay queued).arbiter with lastGrant := some 0 } }
    [reason Bay.reset, reason (faulted .noStop), reason { ready with ejectorOpen := true },
        reason (atRest .spinningDown), reason { unloading with demandB := .load, demandA := .stop, flagA := true },
        blind queued, blind spun, { close with arbiter := { close.arbiter with limit := 39 } }.holdReason 3,
        close.holdReason 3, reason spun, reason (loading .seek .load), reason ready] =
      [.empty, .fault, .ejected, .noDemand, .releasePeer, .motion, .motion, .budget, .gap, .dwell, .inProgress,
        .none] := by decide

theorem witness_ReadCaseReportsTheCase :
    nextIs (exec (.readCase 0 .a) busy)
      (fun t => t.portA.frame.outByte 13 = some 1 && t.portA.frame.outByte 14 = some 0x7F) := by decide

theorem witness_SenseLinesReportsRawLevels :
    nextIs (exec (.senseLines 0 .b 2 true true) busy)
      (fun t => t.portB.frame.outByte 3 = some 0x73 && t.portB.frame.outByte 4 = some 0x02) := by decide

theorem witness_TakeCompletionReportsTheHead :
    nextIs (exec (.takeCompletion 0 .a) started) (fun t => t.portA.frame.outByte 6 = some 0xFF) ∧
      nextIs (exec (.takeCompletion 0 .a) (withFullSlots started)) (fun t => t.portA.frame.outByte 2 = some 1) := by
  decide

theorem witness_ReadProfileAndReadStored :
    nextIs (exec (.readProfile 0 .a 4) started) (fun t => t.portA.frame.outByte 3 = some 0x20) ∧
      nextIs (exec (.readStored 0 .a 3) started) (fun t => t.portA.frame.outByte 3 = some 2) := by decide

theorem witness_SetDemandWritesTheOwnColumn :
    nextIs (exec (.setDemand 0 .b 0x08 9) (withBay (atRest .spinningDown))) (fun t => (t.bay 3).demandB = .load) := by
  decide

theorem witness_SetDemandQueuesIdleBaysInOrder :
    let s := (withBay (atRest .idle)).setBay 1 (atRest .idle)
    s.store.engine ≠ .startup ∧ s.queueMatches ∧ (1 : Byte) ≠ 0 ∧
      (∀ b : BayNo, (0x0A : Byte).getLsbD b.val = true → (s.bay b).state = .idle ∧ (s.bay b).present = true ∧
        (s.bay b).ejectorOpen = false ∧ (s.bay b).fltOn = false) ∧
      nextIs (exec (.setDemand 0 .a 0x0A 1) s) (fun t => t.arbiter.queue = [1, 3]) := by decide

/-- A mask that mixes an IDLE, a RELEASED and a QUEUED bay, and a STOP that takes bays from work and from the queue
(R31, R32, R37, R40, R161). -/
theorem witness_SetDemandMovesBaysByState :
    let two := (withBay { atRest .released with flagB := true }).setBay 1 (atRest .idle)
    let rested := { two.setBay 5 queued with arbiter := { two.arbiter with queue := [5] } }
    isSound rested ∧ rested.store.engine ≠ .startup ∧
      nextIs (exec (.setDemand 0 .a 0x2A 1) rested)
        (fun t => t.arbiter.queue = [5, 1, 3] && !(t.bay 3).flagB && t.arbiter.evalOwed) ∧
      nextIs (exec (.setDemand 0 .a 0xFF 0) busy) (fun t => (t.bay 0).state = .spinningDown &&
        (t.bay 2).state = .unloading && (t.bay 7).state = .queued) ∧
      nextIs (exec (.setDemand 0 .b 0xFF 0) busy) (fun t => (t.bay 7).state = .idle && t.arbiter.queue = []) := by
  decide

/-- Every clause of CLEAR FAULT: not faulted, FLT asserted, HEADS_STUCK, and each way of another kind. -/
theorem witness_ClearFaultClearsTheBay :
    let clear := fun x => exec (.clearFault 0 .a 3) (withBay x)
    let stopped : Bay := { faulted .noStop with quietElapsed := true, quietTimer := none }
    (withBay (faulted .noStop)).baysConsistent ∧ (withBay stopped).baysConsistent ∧
      nextIs (clear (atRest .idle)) (fun t => t.portA.frame.outByte 2 = some 0xA8) ∧
      nextIs (clear { faulted .noStop with fltOn := true }) (fun t => t.portA.frame.outByte 2 = some 0xA9) ∧
      nextIs (clear (faulted .headsStuck)) (fun t => (t.bay 3).state = .retracting) ∧
      nextIs (clear { faulted .noStop with prkOn := false }) (fun t => (t.bay 3).unloadWatch = some 800300) ∧
      nextIs (clear stopped) (fun t => (t.bay 3).state = .idle) ∧
      nextIs (clear (faulted .noStop)) (fun t => (t.bay 3).state = .spinningDown) := by decide

theorem witness_NoticeWordsAndMask :
    nextIs (exec (.ringPeer 0 .a 0x0102) started) (fun t => t.portB.notice = 0x0102 && t.portA.notice = 0) ∧
      nextIs (exec (.takeNotices 0 .a) started) (fun t => t.portA.frame.outByte 1 = some 0xA0) ∧
      nextIs (exec (.setNoticeMask 0 .a 0x05) started)
        (fun t => t.portA.maskC && !t.portA.maskN && t.portA.maskM && !t.portA.maskB) ∧
      started.portA.noticeLine = true ∧ { started.portA with maskM := false, maskB := false }.noticeLine = false := by
  decide

theorem witness_SharedWords :
    ((7 : Byte).toNat = (7 : Fin 8).val) ∧ started.store.engine ≠ .startup ∧
      nextIs (exec (.writeShared 0 .a 7 0xBEEF) started) (fun t => t.shared.get 7 = 0xBEEF) := by decide

/-- The bay leaves RELEASED with the flag of the port that restarts, whose peer's WAIT BAY stands. -/
theorem witness_PortRestartIsLocal :
    let s := withBay { atRest .released with flagA := true }
    let waiting := { s with
      portB := { s.portB with outstanding := [{ tag := 9, kind := .wait 3 .load, accepted := 0, due := none }] } }
    isSound waiting ∧ waiting.store.engine ≠ .startup ∧
      nextIs (exec (.portRestart 0 .a) waiting)
        (fun t => (t.bay 3).state = .idle && t.portB = waiting.portB && t.portA.noticeLine) ∧
      nextIs (exec (.portRestart 0 .b) waiting)
        (fun t => (t.bay 3).state = .released && t.portB.outstanding = []) := by decide

/-- The status byte of a started part in BLIND, and of one that is starting: motion alert, starting and busy (R168). -/
theorem test_status_byte :
    nextIs (exec (.selectFall 0 .a) started) (fun t => t.portA.frame.outByte 0 = some 0x08) ∧
      nextIs (exec (.selectFall 0 .a) State.reset) (fun t => t.portA.frame.outByte 0 = some 0xA8) := by decide

/-- READ BAY's clearing needs all fifteen bytes of its frame; a frame with no command taken is discarded
(R169, R173). -/
theorem test_frame_end :
    let reading := { started with
      portA := { started.portA with
        frame := .taken 0 1 (List.replicate 13 0) (.bayFlag 0), changed := Eight.all true } }
    let begun := { started with portA := { started.portA with frame := .begun 0 } }
    nextIs (exec (.frameEnd 0 .a 14) reading) (fun t => t.portA.changed.get 0) ∧
      nextIs (exec (.frameEnd 0 .a 15) reading) (fun t => !t.portA.changed.get 0 && t.portA.changed.get 1) ∧
      nextIs (exec (.frameEnd 0 .a 1) begun) (fun t => t.portA.discard) := by decide

/-- The data output: high-impedance outside a frame; in it the status byte, 0 for the parameters, the answer, then 0
(R166, R167). -/
theorem test_data_output :
    let frame := Frame.taken 8 2 [0xA0, 0x55] .nothing
    ([0, 1, 2, 3, 4, 5].map frame.outByte = [some 8, some 0, some 0, some 0xA0, some 0x55, some 0]) ∧
      Frame.idle.outByte 0 = none ∧ ([0, 1].map (Frame.begun 8).outByte = [some 8, some 0]) ∧
      nextIs (exec (.selectFall 0 .a) started) (fun t => t.portA.frame.driven && !t.portB.frame.driven) ∧
      nextIs (exec (.frameEnd 0 .a 1) { started with portA := { started.portA with frame := frame } })
        (fun t => !t.portA.frame.driven) := by decide

/-! ### Witnesses: requests -/

/-- Each check in its order: full slots, a tag in use, a busy store, a locked record. -/
theorem witness_RequestsAreCheckedInOrder :
    let inUse := withRequest (.wait 0 .load) (some 60000) started
    let busyStore := { inUse with store := { inUse.store with engine := .reload .a 5000 } }
    let lockedCase := { started with
      store := { started.store with caseRecord := { started.store.caseRecord with lock := true } } }
    let answer := fun (i : Instr) (s : State) (n : Nat) (code : Byte) =>
      nextIs (exec i s) (fun t => t.portA.frame.outByte n = some code)
    answer (.waitBay 0 .a 7 0 2 5) (withFullSlots started) 6 0xA3 ∧
      answer (.releaseBay 0 .a 7 0 5) inUse 5 0xA4 ∧ answer (.reload 0 .a 8) busyStore 2 0xA5 ∧
      answer (.writeRecord 0 .a 8 4 0 (List.replicate 42 0)) lockedCase 46 0xA6 ∧
      answer (.reload 0 .a 8) lockedCase 2 0xA0 := by decide

/-- A WAIT BAY met, aborted, expired at once, and left outstanding. -/
theorem witness_WaitBayIsTestedAtAcceptance :
    let wait := fun (level : Byte) (timeout : Half) (x : Bay) => exec (.waitBay 0 .a 7 3 level timeout) (withBay x)
    let ended := fun (o : Host.Outcome State Fault Refusal) (e : Termination) (r : Reason) =>
      nextIs o (fun t => t.portA.completions.map (fun c => (c.termination, c.reason)) = [(e, r)])
    ended (wait 2 5 ready) .complete .none ∧ ended (wait 1 5 (faulted .noStop)) .aborted .fault ∧
      ended (wait 1 5 Bay.reset) .aborted .removed ∧
      ended (wait 2 5 { atRest .idle with ejectorOpen := true, demandB := .spin }) .aborted .ejected ∧
      ended (wait 2 0 (atRest .idle)) .expired .none ∧
      nextIs (wait 2 5 (atRest .idle)) (fun t => t.portA.outstanding.length = 1) := by decide

/-- A RELEASE BAY by its bay's state (R162): at once for the first four, EXPIRED at timeout 0 with the reason of the
flag still set, outstanding otherwise; an IDLE bay with the peer's demand above STOP stays. -/
theorem witness_ReleaseBayActsAtAcceptance :
    let release := fun (timeout : Half) (x : Bay) => exec (.releaseBay 0 .a 7 3 timeout) (withBay x)
    let ended := fun (o : Host.Outcome State Fault Refusal) (st : BayState) (e : Termination) (r : Reason) =>
      nextIs o (fun t => (t.bay 3).state = st &&
        t.portA.completions.map (fun c => (c.termination, c.reason, c.bayState)) = [(e, r, some st)])
    let held := { atRest .idle with demandB := .spin, fltOn := true }
    let shared := { ready with demandB := .load }
    isSound (withBay ready) ∧ isSound (withBay held) ∧ isSound (withBay shared) ∧
      ended (release 5 (atRest .idle)) .released .complete .none ∧
      ended (release 5 (atRest .released)) .released .complete .none ∧
      ended (release 5 (faulted .noStop)) .faulted .aborted .fault ∧
      ended (release 5 Bay.reset) .empty .aborted .removed ∧
      ended (release 0 ready) .unloading .expired .noDemand ∧
      ended (release 0 shared) .ready .expired .releasePeer ∧
      nextIs (release 5 ready) (fun t => (t.bay 3).flagA && (t.bay 3).state = .unloading) ∧
      nextIs (release 5 held) (fun t => (t.bay 3).flagA && (t.bay 3).state = .idle) := by decide

theorem witness_StoreRequestsStartTheEngine :
    started.store.engine = .idle ∧
      nextIs (exec (.writeRecord 0 .a 7 2 1 (List.replicate 32 0)) started)
        (fun t => (t.store.profiles.get 2).valid = false && t.store.engine.dueMoment = some 20300) ∧
      nextIs (exec (.reload 0 .a 7) started) (fun t => t.store.engine = .reload .a 2300) := by decide

/-- A CANCEL of a release, and one of no outstanding request. -/
theorem witness_CancelEndsTheTaggedRequest :
    busy.store.engine ≠ .startup ∧ busy.slotsHold ∧
      nextIs (exec (.cancel 0 .a 7) busy) (fun t => (t.bay 3).flagA = false && t.portA.outstanding = []) ∧
      nextIs (exec (.cancel 0 .b 7) busy) (fun t => t.portB.frame.outByte 2 = some 0xA7) := by decide

theorem witness_TimeoutsExpireTheRequest :
    let s := withRequest (.wait 0 .load) (some 60000) started
    s.slotsHold ∧ nextIs (exec (.waitBayTimeout .a 7) s) (fun t => t.now = 60000 && t.portA.outstanding = []) ∧
      busy.slotsHold ∧
      nextIs (exec (.releaseBayTimeout .a 7) busy) (fun t =>
        t.portA.completions.map Completion.reason = [.noDemand]) := by decide

/-! ### Witnesses: the store -/

theorem witness_StartupLoadInstallsTheCopies :
    State.reset.store.engine = .startup ∧
      nextIs (exec (.startupLoadComplete 300) State.reset)
        (fun t => t.store.workingCase.fromRecord && t.motion.vib = 640 && t.arbiter.limit = 160) ∧
      State.reset.timely ∧
      nextIs (exec (.startupLoadComplete 5001) State.reset) (fun t => t.now = 5000 && !t.starting) := by decide

theorem witness_StoreOperationsEnd :
    let write := { started with
      store := { started.store with engine := .write (.profile 1 builtInProfile) true .a 20300 } }
    let reload := { started with store := { started.store with engine := .reload .b 2300 } }
    nextIs (exec (.writeEnd true) write) (fun t => (t.store.profiles.get 1).lock && t.now = 20300) ∧
      nextIs (exec .reloadEnd reload) (fun t => t.arbiter.evalOwed && t.now = 2300) := by decide

/-- Part reset during a write leaves its record invalid, whatever the free values are (R190). -/
theorem test_reset_tears_the_write :
    let write := { started with
      store := { started.store with engine := .write (.profile 1 builtInProfile) true .a 20300 } }
    nextIs (exec .partReset write) (fun t => (t.store.profiles.get 1).valid = false && t.draws = 1) = true := rfl

/-- Both notice lines and every line of a bay at work fall while reset lasts; the notice lines assert at its end, where
the bay starts anew (R57, R184). -/
theorem test_lines_during_reset :
    let s := withBay ready
    let held := s.holdReset
    (s.bay 3).spin = true ∧ s.portA.noticeLine = true ∧
      held.portA.noticeLine = false ∧ held.portB.noticeLine = false ∧ (held.bay 3).spin = false ∧
      (held.bay 3).hld = false ∧
      nextIs (exec .partReset s) (fun t => t.portA.noticeLine && t.portB.noticeLine && t.starting &&
        (t.bay 3).state = .spinningDown) := by decide

theorem test_part_reset_of_reset : nextIs (exec .partReset State.reset) (fun t => t = State.reset) := by
  decide

/-! ### Witnesses: input lines -/

/-- A raw change starts the line's filter; a return to the settled level stops it (R77, R154). -/
theorem test_raw_changes :
    nextIs (exec (.prsLineChange 0 3 true) started) (fun t => (t.bay 3).prsTimer = some 50300) ∧
      nextIs (exec (.prkLineChange 0 3 false) (withBay { atRest .idle with prkOn := false, prkTimer := some 900 }))
        (fun t => (t.bay 3).prkTimer = none) := by decide

theorem witness_SettleGapAndLedTimers :
    let s := { withBay { faulted .noStop with ledPattern := .fast, led := true, ledTimer := some 9000 } with
      arbiter := { started.arbiter with srcRaw := true, srcTimer := some 9000, gapTimer := some 9000 }
      store := { started.store with keyRaw := true, keyTimer := some 9000 } }
    nextIs (exec .srcSettleExpiry s) (fun t => t.arbiter.battery && t.arbiter.limit = 80) ∧
      nextIs (exec .srcSettleExpiry { s with store := State.reset.store })
        (fun t => t.arbiter.battery && t.arbiter.limit = 160) ∧
      nextIs (exec .keySettleExpiry s) (fun t => t.store.keyService) ∧
      nextIs (exec .gapTimerExpiry s) (fun t => t.arbiter.evalOwed) ∧
      nextIs (exec (.ledPatternToggle 3) s) (fun t => (t.bay 3).ledTimer = some 134000) := by decide

theorem witness_PresenceEmptiesAndFillsTheBay :
    let removed := withBay { ready with prs := false, prsTimer := some 50000 }
    let inserted := withBay { Bay.reset with prs := true, prsTimer := some 50000 }
    removed.queueMatches ∧ (removed.bay 3).ledPattern = .off ∧ (removed.bay 3).led = false ∧
      (removed.bay 3).ledTimer = none ∧
      nextIs (exec (.prsSettleExpiry 3) removed) (fun t => (t.bay 3).state = .empty && !(t.bay 3).led) ∧
      isSound inserted ∧ nextIs (exec (.prsSettleExpiry 3) inserted) (fun t => (t.bay 3).restMark) := by decide

theorem witness_EjectorCapsTheBay :
    let opened := withBay { ready with ejc := true, ejcTimer := some 50000 }
    let closed := withBay { atRest .released with ejectorOpen := true, ejcTimer := some 50000 }
    isSound opened ∧ (opened.bay 3).timing.inRange = true ∧
      nextIs (exec (.ejcSettleExpiry 3) opened) (fun t => (t.bay 3).state = .unloading) ∧
      isSound closed ∧ nextIs (exec (.ejcSettleExpiry 3) closed) (fun t => (t.bay 3).state = .idle) := by decide

theorem witness_FilteredFltActsByState :
    let rises := fun x => withBay { x with flt := true, fltTimer := some 2000 }
    isSound (rises ready) ∧
      nextIs (exec (.fltFilterExpiry 3) (rises ready)) (fun t => (t.bay 3).cause = some (.fault .carrierFault)) ∧
      isSound (rises spinningDown) ∧
      nextIs (exec (.fltFilterExpiry 3) (rises spinningDown)) (fun t => (t.bay 3).state = .faulted) := by
  decide

theorem witness_FilteredPrkActsByState :
    let parks := fun x => withBay { x with prk := true, prkOn := false, prkTimer := some 1000 }
    let leaves := fun x => withBay { x with prk := false, prkTimer := some 1000 }
    let watched := { spinningDown with unloadWatch := some 7000, prkOn := false }
    let lifted := { retracting .alarm with pulseTimer := none, rtr := false }
    isSound (parks ready) ∧ isSound (parks watched) ∧ isSound (parks lifted) ∧ isSound (leaves spun) ∧
      nextIs (exec (.prkFilterExpiry 3) (parks ready)) (fun t => (t.bay 3).state = .spun) ∧
      nextIs (exec (.prkFilterExpiry 3) (parks watched)) (fun t => (t.bay 3).unloadWatch = none) ∧
      nextIs (exec (.prkFilterExpiry 3) (parks lifted)) (fun t => (t.bay 3).state = .spun) ∧
      nextIs (exec (.prkFilterExpiry 3) (leaves spun)) (fun t => (t.bay 3).cause = some .stray) := by decide

/-! ### Witnesses: speed and spindle -/

/-- A glitch, an in-band period that ends the spin-up, and one out of band (R60, R63, R68). -/
theorem witness_IndexPulseIsJudged :
    let s := withBay { spinningUp with inRun := 15 }
    isSound s ∧ nextIs (exec (.idxPulse 2082 3) s) (fun t => (t.bay 3).inRun = 15) ∧
      nextIs (exec (.idxPulse 8333 3) s) (fun t => (t.bay 3).state = .spun || (t.bay 3).state = .loading) ∧
      nextIs (exec (.idxPulse 8594 3) s) (fun t => (t.bay 3).outRun = 1) := by decide

theorem witness_AbsenceAndQuiet :
    let lost := withBay { spun with outRun := 3 }
    isSound lost ∧ nextIs (exec (.absenceTimerExpiry 3) lost) (fun t => (t.bay 3).fault = some .speedLost) ∧
      isSound (withBay spinningDown) ∧
      nextIs (exec (.quietTimerExpiry 3) (withBay spinningDown)) (fun t => (t.bay 3).state = .idle) := by decide

theorem witness_PulseAndAbsenceTogether :
    let s := withBay { spun with absenceTimer := some 16966 }
    isSound s ∧ (s.bay 3).spin = true ∧ (s.bay 3).reference = some 300 ∧ s.now ≤ 16966 ∧
      2 * (s.bay 3).timing.pNom ≤ 16966 ∧ (16966 - 2 * (s.bay 3).timing.pNom) % 2 ^ 24 = 300 := by decide

theorem witness_SpinupLimitRetriesOrFaults :
    isSound (withBay spinningUp) ∧
      nextIs (exec (.spinupLimitExpiry 3) (withBay spinningUp)) (fun t => (t.bay 3).retry) ∧
      nextIs (exec (.spinupLimitExpiry 3) (withBay { spinningUp with tries := 1 }))
        (fun t => (t.bay 3).fault = some .spinupFailed) := by decide

theorem witness_SpindownLimitAndUnloadWatch :
    let watched := withBay { spinningDown with unloadWatch := some 7000, prkOn := false }
    isSound (withBay spinningDown) ∧ isSound watched ∧
      nextIs (exec (.spindownLimitExpiry 3) (withBay spinningDown)) (fun t => (t.bay 3).fault = some .noStop) ∧
      nextIs (exec (.spindownLimitExpiry 3) watched) (fun t => (t.bay 3).spindownHeld) ∧
      nextIs (exec (.unloadWatchExpiry 3) watched) (fun t => (t.bay 3).fault = some .headsStuck) := by decide

/-! ### Witnesses: heads -/

theorem witness_DwellAndLoadPhases :
    let seeking := withBay (loading .seek .load)
    let settling := withBay (loading .settle .settle)
    let withdrawing := withBay (loading .withdraw .withdraw)
    let dwelling := withBay { spun with dwellTimer := some 500000 }
    isSound seeking ∧ isSound settling ∧ isSound withdrawing ∧ isSound dwelling ∧
      nextIs (exec (.dwellTimerExpiry 3) dwelling) (fun t => (t.bay 3).state = .loading) ∧
      nextIs (exec (.loadTimerExpiry 3) seeking) (fun t => (t.bay 3).phase = some .withdraw) ∧
      nextIs (exec (.settleTimerExpiry 3) settling) (fun t => (t.bay 3).state = .ready) ∧
      nextIs (exec (.withdrawWatchExpiry 3) withdrawing)
        (fun t => (t.bay 3).cause = some (.fault .loadFailed)) := by decide

theorem witness_UnloadAndRetractTimers :
    isSound (withBay unloading) ∧ isSound (withBay (retracting .alarm)) ∧
      nextIs (exec (.unloadTimerExpiry 3) (withBay unloading)) (fun t => (t.bay 3).state = .retracting) ∧
      nextIs (exec (.pulseTimerExpiry 3) (withBay (retracting .alarm))) (fun t => (t.bay 3).state = .spun) ∧
      nextIs (exec (.retractTimerExpiry 3) (withBay { retracting .alarm with prkOn := false }))
        (fun t => (t.bay 3).fault = some .headsStuck) := by decide

/-! ### Witnesses: the arbiter and the sensor's path -/

theorem witness_GrantEvaluationGrantsTheHead :
    busy.queueMatches ∧ busy.arbiter.evalOwed = true ∧
      nextIs (exec (.grantEvaluation 5) { busy with arbiter := { busy.arbiter with limit := 99 } })
        (fun t => t.arbiter.queue = [7] && !t.arbiter.evalOwed) ∧
      nextIs (exec (.grantEvaluation 5) { busy with arbiter := { busy.arbiter with limit := 100 } })
        (fun t => t.arbiter.queue = [] && t.arbiter.gapTimer = some 1500000) := by decide

/-! The sampling of R117: a character found in 170 samples, in one event or cut between two; a break, which gives one
framing error and then nothing; a start at the sample after a false start's sample 9. -/

/-- A line whose start bit decides 0, and one that dips for three samples and rests at 1 from then on. -/
theorem witness_SampledWaves :
    let character := fun n => n % 16 = 7 || decide (17 ≤ n)
    let dipped := fun n => decide (3 ≤ n)
    let keeps := fun (wave : Nat → Bool) (taken : BitVec 33) =>
      wave 0 = false ∧ ∀ i < 11, ∀ j < 3, taken.getLsbD (3 * i + j) = wave (16 * i + 6 + j)
    keeps character (BitVec.allOnes 33 - 5) ∧ keeps dipped (BitVec.allOnes 33) ∧
      (character 6).toNat + (character 7).toNat + (character 8).toNat = 1 ∧
      (dipped 6).toNat + (dipped 7).toNat + (dipped 8).toNat = 3 := by decide

set_option maxRecDepth 8000 in
theorem test_line_of_a_header :
    nextIs (exec (.characterFinished 42 (lineOf (wireCharacter 0x0B true true))) started)
      (fun t => t.receiver.openFrame = some { header := 0x0B, axes := [] } && t.receiver.linePhase = .hunt true &&
        t.receiver.silenceTimer = some 20342) := by decide

set_option maxRecDepth 8000 in
theorem test_line_cut_in_two :
    let line := lineOf (wireCharacter 0x0B true true)
    let rest := (LinePhase.hunt false).after (line.take 40)
    rest = .inCharacter 2 7 ((7#33 <<< 3) ||| (1#33 <<< 6)) ∧
      rest.facts (line.drop 40) = [.finished (wireCharacter 0x0B true true)] := by
  decide

set_option maxRecDepth 8000 in
theorem test_break :
    (LinePhase.hunt true).facts (List.replicate 400 false) = [.finished 0] ∧ charStop 0 = false ∧
      (LinePhase.hunt true).after (List.replicate 400 false) = .hunt false := by decide

theorem test_start_after_a_dip :
    (LinePhase.hunt false).after dip = .hunt true ∧
      (LinePhase.hunt false).after (dip ++ [false]) = .inCharacter 0 1 0 ∧
      (LinePhase.hunt false).after [false, false] = .hunt false := by decide

theorem witness_CharactersAssembleFrames :
    started.receiver.openFrame = none ∧ hears 0b1000 started ∧
      hears (wireCharacter 0x3F true true) started ∧
      hears (wireCharacter 0xFF false true) (withFrame 0 [1, 2, 3, 4] started) ∧
      nextIs (finishes 0b1000 started) (fun t => t.receiver.openFrame = none) ∧
      nextIs (finishes (wireCharacter 0x3F true true) started)
        (fun t => t.receiver.openFrame = some { header := 0x3F, axes := [] }) ∧
      nextIs (finishes (wireCharacter 0xFF false true) (withFrame 0 [1, 2, 3, 4] started))
        (fun t => t.receiver.openFrame = some { header := 0, axes := [1, 2, 3, 4, 255] }) := by decide

/-- Each way of losing a frame, the last the one that brings the miss run to MISS_LIMIT. -/
theorem witness_LostFramesCountAsMissing :
    let opened := withFrame 0 [1] (withBay ready)
    let failed := withFrame 0x30 [0, 0, 0, 0, 250] (withBay ready)
    let last := { opened with receiver := { opened.receiver with missRun := 7 } }
    let gap := { failed with receiver := { failed.receiver with expected := some 14 } }
    let missed := fun (o : Host.Outcome State Fault Refusal) => nextIs o (fun t => t.receiver.missRun = 1)
    hears 0b1000 opened ∧ hears (wireCharacter 0x40 true true) opened ∧ hears (wireCharacter 0 false true) failed ∧
      hears (wireCharacter 0 false true) gap ∧ hears 0b1000 last ∧
      nextIs (finishes (wireCharacter 0x40 true true) opened)
        (fun t => t.receiver.missRun = 2 && t.receiver.openFrame = none) ∧
      nextIs (finishes (wireCharacter 0 false true) gap)
        (fun t => t.receiver.missRun = 3 && t.receiver.expected = some 1) ∧
      missed (finishes 0b1000 opened) ∧
      missed (finishes (wireCharacter 0x3F true true) opened) ∧
      missed (finishes (wireCharacter 0x40 true true) (withBay ready)) ∧
      missed (finishes (wireCharacter 0 false true) failed) ∧
      nextIs (finishes 0b1000 last)
        (fun t => t.motion.state = .blind && (t.bay 3).state = .unloading) := by decide

theorem witness_MagnitudeAndDeviationOfASample :
    (∀ v ∈ [(-2048 : Int), 2047, 0], -2048 ≤ v ∧ v ≤ 2047) ∧
      [2048, 2047, 0].Perm [(-2048 : Int).natAbs, (2047 : Int).natAbs, (0 : Int).natAbs] := by decide

theorem witness_VibrationAverageFollowsTheDeviation :
    builtInCase.inRange = true ∧ (Sample.mk 2047 2047 2047 false).d = 3332 ∧
      (Sample.mk (-2048) (-2048) (-2048) false).d = 3334 := by decide

/-- A rest sample, a shock and a clipped sample, each the last character of a frame (R131 to R138). -/
theorem witness_AcceptedSampleMovesTheClassifier :
    let sample := fun (header : Nat) (low : Nat) => withFrame header [0, 0, 0, 0, low] (withBay ready)
    let late := fun run => { sample 0x00 250 with
      receiver := { (sample 0x00 250).receiver with expected := some 14, missRun := run } }
    let last := finishes (wireCharacter 0 false true)
    hears (wireCharacter 0 false true) (late 0) ∧ hears (wireCharacter 0 false true) (late 6) ∧
      nextIs (last (late 0)) (fun t => t.motion.state = .stirred && t.receiver.missRun = 0) ∧
      nextIs (last (late 6)) (fun t => t.motion.state = .blind && (t.bay 3).state = .unloading &&
        t.motion.recover = 1) ∧
      hears (wireCharacter 4 false true) (sample 0x00 250) ∧ hears (wireCharacter 0 false true) (sample 0x1F 250) ∧
      nextIs (finishes (wireCharacter 0 false true) (sample 0x00 250))
        (fun t => t.motion.lastE = some 250 && t.motion.lastD = some 0 && t.motion.vib = 620) ∧
      nextIs (finishes (wireCharacter 4 false true) (sample 0x00 250))
        (fun t => t.motion.state = .alarm && (t.bay 3).state = .retracting) ∧
      nextIs (finishes (wireCharacter 0 false true) (sample 0x1F 250))
        (fun t => t.motion.state = .alarm && t.receiver.expected = some 0) := by decide

theorem witness_SilenceBlindsAndFalseStartsDoNot :
    let s := withBay ready
    isSound s ∧ s.receiver.silenceTimer = some 20300 ∧ s.receiver.linePhase.facts dip = [.falseStart] ∧
      nextIs (exec .silenceTimerExpiry s) (fun t => t.motion.state = .blind && (t.bay 3).state = .unloading) ∧
      nextIs (exec (.mrxFalseStart ⟨5, dip⟩) s)
        (fun t => t.receiver = { s.receiver with linePhase := .hunt true } && t.now = 305) := by decide

end Sys2Proof.Tests
end

section
/-!
What a chain of state entries leaves as it was and what it hands on, said once for every entry of the sequencer (R27).
-/

namespace Sys2Proof.Machine

/-! ### Keeping inputs and the speed monitor's record -/

@[simp] theorem Bay.KeepsInputs.refl (x : Bay) : x.KeepsInputs x := ⟨rfl, rfl, rfl, rfl, rfl⟩

theorem Bay.KeepsInputs.trans {x y z : Bay} (h : x.KeepsInputs y) (g : y.KeepsInputs z) : x.KeepsInputs z :=
  ⟨g.raw.trans h.raw, g.settled.trans h.settled, g.filters.trans h.filters, g.demands.trans h.demands,
    g.snapshot.trans h.snapshot⟩

@[simp] theorem Bay.KeepsSpeed.refl (x : Bay) : x.KeepsSpeed x := ⟨rfl, rfl⟩

theorem Bay.KeepsSpeed.trans {x y z : Bay} (h : x.KeepsSpeed y) (g : y.KeepsSpeed z) : x.KeepsSpeed z :=
  ⟨g.runs.trans h.runs, g.period.trans h.period⟩

section
variable {x y : Bay} (h : x.KeepsInputs y)
include h

theorem Bay.KeepsInputs.present : y.present = x.present := congrArg (·.1) h.settled
theorem Bay.KeepsInputs.ejectorOpen : y.ejectorOpen = x.ejectorOpen := congrArg (·.2.1) h.settled
theorem Bay.KeepsInputs.fltOn : y.fltOn = x.fltOn := congrArg (·.2.2.1) h.settled
theorem Bay.KeepsInputs.demandA : y.demandA = x.demandA := congrArg (·.1) h.demands
theorem Bay.KeepsInputs.demandB : y.demandB = x.demandB := congrArg (·.2) h.demands

theorem Bay.KeepsInputs.demand (p : Port) : y.demand p = x.demand p := by
  cases p
  · exact h.demandA
  · exact h.demandB

theorem Bay.KeepsInputs.merged : y.merged = x.merged := by
  simp only [Bay.merged, h.demandA, h.demandB]

theorem Bay.KeepsInputs.timing : y.timing = x.timing := by
  simp only [Bay.timing, h.snapshot]

end

/-! ### Edits inside a state -/

/-- What `Bay.monitorHolds` asks of a bay outside EMPTY (R18, R28, R64, R65, R71). -/
def Bay.monitorRuns (x : Bay) : Bool :=
  (x.inRun ≤ 64) && (x.outRun ≤ 16) && (x.inRun = 0 || x.outRun = 0) && (x.tries ≤ 4) &&
  (x.absenceTimer.isSome == x.spin) && (x.quietTimer.isSome == !x.quietElapsed) &&
  (!x.restMark || (x.quietElapsed && !x.spin))

theorem Bay.monitorHolds_iff {x : Bay} (h : x.state ≠ .empty) : x.monitorHolds = true ↔ x.monitorRuns = true := by
  unfold Bay.monitorHolds Bay.monitorRuns
  rw [if_neg h]

/-- An edit of the sequencer that is no state entry: the inputs, the demands and flags, the speed monitor's record, the
state and the LED stand, and the speed monitor stays consistent. -/
structure Bay.WithinState (x y : Bay) : Prop where
  inputs : x.KeepsInputs y
  speed : x.KeepsSpeed y
  entry : (y.state, y.since, y.flagA, y.flagB, y.tries) = (x.state, x.since, x.flagA, x.flagB, x.tries)
  light : (y.led, y.ledPattern, y.ledTimer) = (x.led, x.ledPattern, x.ledTimer)
  monitor : x.monitorRuns = true → y.monitorRuns = true

theorem Bay.WithinState.state {x y : Bay} (h : x.WithinState y) : y.state = x.state := congrArg (·.1) h.entry
theorem Bay.WithinState.since {x y : Bay} (h : x.WithinState y) : y.since = x.since := congrArg (·.2.1) h.entry
theorem Bay.WithinState.flagA {x y : Bay} (h : x.WithinState y) : y.flagA = x.flagA := congrArg (·.2.2.1) h.entry
theorem Bay.WithinState.flagB {x y : Bay} (h : x.WithinState y) : y.flagB = x.flagB := congrArg (·.2.2.2.1) h.entry
theorem Bay.WithinState.tries {x y : Bay} (h : x.WithinState y) : y.tries = x.tries := congrArg (·.2.2.2.2) h.entry

theorem Bay.WithinState.flag {x y : Bay} (h : x.WithinState y) (p : Port) : y.flag p = x.flag p := by
  cases p
  · exact h.flagA
  · exact h.flagB

theorem Bay.WithinState.led {x y : Bay} (h : x.WithinState y) : y.led = x.led := congrArg (·.1) h.light
theorem Bay.WithinState.ledPattern {x y : Bay} (h : x.WithinState y) : y.ledPattern = x.ledPattern :=
  congrArg (·.2.1) h.light
theorem Bay.WithinState.ledTimer {x y : Bay} (h : x.WithinState y) : y.ledTimer = x.ledTimer :=
  congrArg (·.2.2) h.light

theorem Bay.dropSpin_monitorRuns (c : Ctx) {x : Bay} (h : x.monitorRuns = true) : (x.dropSpin c).monitorRuns = true := by
  unfold Bay.dropSpin
  split
  next hspin =>
    simp only [Bay.monitorRuns, Bool.and_eq_true, hspin] at h ⊢
    simp_all
  next => exact h

theorem Bay.restIfQuiet_monitorRuns {x : Bay} (h : x.monitorRuns = true) : x.restIfQuiet.monitorRuns = true := by
  simp only [Bay.monitorRuns, Bool.and_eq_true] at h
  obtain ⟨⟨h, hquiet⟩, hrest⟩ := h
  have hmark : (!x.restIfQuiet.restMark || (x.quietElapsed && !x.spin)) = true := by
    revert hrest
    rw [Bay.restIfQuiet_restMark]
    cases x.restMark <;> cases x.quietElapsed <;> cases x.spin <;> simp
  simp only [Bay.monitorRuns, Bool.and_eq_true]
  exact ⟨⟨h, hquiet⟩, hmark⟩

theorem Bay.withinState_dropSpin (c : Ctx) (x : Bay) : x.WithinState (x.dropSpin c) := by
  refine ⟨?_, ?_, by simp, by simp, x.dropSpin_monitorRuns c⟩ <;> constructor <;> simp

theorem Bay.withinState_park (c : Ctx) (x : Bay) : x.WithinState (x.park c) :=
  ⟨⟨rfl, rfl, rfl, rfl, rfl⟩, ⟨rfl, rfl⟩, rfl, rfl, id⟩

theorem Bay.withinState_clearRetry (x : Bay) : x.WithinState x.clearRetry :=
  ⟨⟨rfl, rfl, rfl, rfl, rfl⟩, ⟨rfl, rfl⟩, rfl, rfl, id⟩

theorem Bay.withinState_startSpindown (c : Ctx) (mayWatch : Bool) (x : Bay) :
    x.WithinState (x.startSpindown c mayWatch) :=
  ⟨⟨rfl, rfl, rfl, rfl, rfl⟩, ⟨rfl, rfl⟩, rfl, rfl, Bay.restIfQuiet_monitorRuns⟩

theorem Bay.withinState_aimDwell (c : Ctx) (x : Bay) : x.WithinState (x.aimDwell c) :=
  ⟨⟨rfl, rfl, rfl, rfl, rfl⟩, ⟨rfl, rfl⟩, rfl, rfl, id⟩

/-! ### Chains of entries -/

/-- The state a fact enters. -/
def Fact.entered? : Fact → Option BayState
  | .entered st => some st
  | _ => none

/-- The states entered, in order. -/
def entries (fs : List Fact) : List BayState := fs.filterMap Fact.entered?

@[simp] theorem entries_nil : entries [] = [] := rfl
@[simp] theorem entries_append (fs gs : List Fact) : entries (fs ++ gs) = entries fs ++ entries gs :=
  List.filterMap_append
@[simp] theorem entries_entered (st : BayState) (fs : List Fact) : entries (.entered st :: fs) = st :: entries fs := rfl
@[simp] theorem entries_leftEmpty (fs : List Fact) : entries (.leftEmpty :: fs) = entries fs := rfl
@[simp] theorem entries_ejectorSet (o : Bool) (fs : List Fact) : entries (.ejectorSet o :: fs) = entries fs := rfl
@[simp] theorem entries_demandRaised (p : Port) (fs : List Fact) : entries (.demandRaised p :: fs) = entries fs := rfl

@[simp] theorem entries_leaving (st : BayState) : entries (if st = .empty then [.leftEmpty] else []) = [] := by
  split <;> rfl

theorem mem_entries (st : BayState) (fs : List Fact) : st ∈ entries fs ↔ .entered st ∈ fs := by
  simp only [entries, List.mem_filterMap]
  constructor
  · rintro ⟨f, hf, h⟩
    cases f <;> simp_all [Fact.entered?]
  · exact fun h => ⟨_, h, rfl⟩

/-- A flag is set or the ejector is open: what the release condition asks for beside the demands (R13). -/
def Bay.freed (x : Bay) : Bool := x.flagA || x.flagB || x.ejectorOpen

/-- `v` comes of `w` by edits within the states and by state entries, none of them that of a removal or of a grant; and
RELEASED is entered from elsewhere and for a reason (R27, R159). -/
inductive Work.Goes (c : Ctx) (w : Work) : Work → Prop where
  | stay : Goes c w w
  | edit {v : Work} (f : Bay → Bay) : Goes c w v → v.bay.WithinState (f v.bay) → Goes c w (v.edit f)
  | enter {v : Work} (st : BayState) : Goes c w v → st ∉ [.empty, .spinningUp] →
      (st = .released → v.bay.state ≠ .released ∧ v.bay.freed = true) → Goes c w (v.enter c st)

namespace Work.Goes
variable {c : Ctx} {u v w : Work}

theorem inputs (h : Goes c w v) : w.bay.KeepsInputs v.bay := by
  induction h with
  | stay => exact .refl _
  | edit f _ hf ih => exact ih.trans hf.inputs
  | enter st _ _ _ ih => exact ih.trans (by constructor <;> simp)

theorem speed (h : Goes c w v) : w.bay.KeepsSpeed v.bay := by
  induction h with
  | stay => exact .refl _
  | edit f _ hf ih => exact ih.trans hf.speed
  | enter st _ _ _ ih => exact ih.trans (by constructor <;> simp)

theorem tries (h : Goes c w v) : v.bay.tries = w.bay.tries := by
  induction h with
  | stay => rfl
  | edit f _ hf ih => exact hf.tries.trans ih
  | enter st _ _ _ ih => simpa using ih

theorem monitor (h : Goes c w v) (hw : w.bay.monitorRuns = true) : v.bay.monitorRuns = true := by
  induction h with
  | stay => exact hw
  | edit f _ hf ih => exact hf.monitor ih
  | enter st _ _ _ ih => simpa [Bay.monitorRuns] using ih

theorem state_ne_empty (h : Goes c w v) (hw : w.bay.state ≠ .empty) : v.bay.state ≠ .empty := by
  induction h with
  | stay => exact hw
  | edit f _ hf ih => rw [Work.edit_bay, hf.state]; exact ih
  | enter st _ hst _ ih => simpa using fun he : st = .empty => hst (by simp [he])

/-- No chain of entries leads to SPINNING_UP (R33). -/
theorem state_spinningUp (h : Goes c w v) (hv : v.bay.state = .spinningUp) : w.bay.state = .spinningUp := by
  induction h with
  | stay => exact hv
  | edit f _ hf ih => exact ih (hf.state.symm.trans hv)
  | enter st _ hst _ _ => exact absurd (by simpa using hv : st = .spinningUp) fun he => hst (by simp [he])

/-- A chain of entries that ends in RELEASED ends there for a reason (R13, R159). -/
theorem rests (h : Goes c w v) (hw : w.bay.state = .released → w.bay.freed = true) (hv : v.bay.state = .released) :
    v.bay.freed = true := by
  induction h with
  | stay => exact hw hv
  | @edit v f _ hf ih =>
    have hkeep : (f v.bay).freed = v.bay.freed := by simp only [Bay.freed, hf.flagA, hf.flagB, hf.inputs.ejectorOpen]
    rw [Work.edit_bay, hkeep]
    exact ih (hf.state.symm.trans hv)
  | enter st _ _ hr _ =>
    obtain ⟨hne, hfreed⟩ := hr (by simpa using hv)
    simpa [Bay.freed, hne] using hfreed

/-- What a chain of entries hands on: each entry, and the leaving of EMPTY. -/
theorem facts (h : Goes c w v) :
    ∃ fs, v.facts = w.facts ++ fs ∧ ∀ f ∈ fs, f = .leftEmpty ∨ ∃ st, st ≠ .empty ∧ f = .entered st := by
  induction h with
  | stay => exact ⟨[], by simp, by simp⟩
  | edit f _ _ ih => exact ih
  | @enter v st _ hst _ ih =>
    obtain ⟨fs, hfs, hall⟩ := ih
    refine ⟨fs ++ (if v.bay.state = .empty then [.leftEmpty] else []) ++ [.entered st], by simp [hfs], fun f hf => ?_⟩
    simp only [List.mem_append, List.mem_singleton] at hf
    obtain (hf | hf) | rfl := hf
    · exact hall f hf
    · split at hf <;> simp_all
    · exact .inr ⟨st, fun he => hst (by simp [he]), rfl⟩

end Work.Goes

/-- The sequencer's record follows what it handed on since it was `x` with nothing handed on: its state is the last one
entered, its stamp that entry's, and a flag stands unless RELEASED was left (R4, R11). -/
structure Work.Tracks (c : Ctx) (x : Bay) (w : Work) : Prop where
  state : w.bay.state = (x.state :: entries w.facts).getLast (by simp)
  since : w.bay.since = if entries w.facts = [] then x.since else c.now
  flag : ∀ p, w.bay.flag p = (x.flag p && decide (.released ∉ (x.state :: entries w.facts).dropLast))

theorem Work.Tracks.start (c : Ctx) (x : Bay) (fs : List Fact) (h : entries fs = []) : Work.Tracks c x ⟨x, fs⟩ := by
  constructor <;> simp [h]

theorem Work.Tracks.edit {c : Ctx} {x : Bay} {w : Work} (h : w.Tracks c x) (f : Bay → Bay)
    (hf : w.bay.WithinState (f w.bay)) : (w.edit f).Tracks c x :=
  ⟨hf.state.trans h.state, hf.since.trans h.since, fun p => (hf.flag p).trans (h.flag p)⟩

theorem Bay.flag_entering (c : Ctx) (st : BayState) (x : Bay) (p : Port) :
    ((x.entering c st).relight c).flag p = (x.flag p && decide (x.state ≠ .released)) := by
  cases p <;> simp [Bay.flag]

theorem not_mem_iff_dropLast_getLast (l : List BayState) {st : BayState} (h : l ≠ []) :
    st ∉ l ↔ st ∉ l.dropLast ∧ l.getLast h ≠ st := by
  conv_lhs => rw [← List.dropLast_append_getLast h]
  simp only [List.mem_append, List.mem_singleton, not_or, ne_eq, eq_comm]

theorem Work.Tracks.enter {c : Ctx} {x : Bay} {w : Work} (h : w.Tracks c x) (st : BayState) :
    (w.enter c st).Tracks c x := by
  have he : entries (w.enter c st).facts = entries w.facts ++ [st] := by simp
  constructor
  · simp
  · simp
  · intro p
    rw [Work.enter_bay, Bay.flag_entering, h.flag p, h.state, he, ← List.cons_append, List.dropLast_concat,
      Bool.and_assoc, ← Bool.decide_and]
    simp only [not_mem_iff_dropLast_getLast _ (List.cons_ne_nil _ _)]

theorem Work.Goes.tracks {c : Ctx} {x : Bay} {w v : Work} (h : Work.Goes c w v) (hw : w.Tracks c x) :
    v.Tracks c x := by
  induction h with
  | stay => exact hw
  | edit f _ hf ih => exact ih.edit f hf
  | enter st _ _ _ ih => exact ih.enter st

/-- The line of the LED follows the pattern it shows (R165). -/
def Bay.ledLineHolds (x : Bay) : Bool :=
  match x.ledPattern with
  | .off => !x.led && x.ledTimer.isNone
  | .on => x.led && x.ledTimer.isNone
  | .slow | .fast => x.ledTimer.isSome

theorem Bay.ledFollowsState_iff (x : Bay) :
    x.ledFollowsState = true ↔ x.ledPattern = x.ledWanted ∧ x.ledLineHolds = true := by
  unfold Bay.ledFollowsState
  rw [Bool.and_eq_true, decide_eq_true_eq]
  refine and_congr ?_ Iff.rfl
  unfold Bay.ledWanted
  cases x.state <;> exact Iff.rfl

theorem Bay.ledFollowsState_relight (c : Ctx) (x : Bay) (h : x.ledLineHolds = true) :
    (x.relight c).ledFollowsState = true :=
  x.relight_ledFollowsState c h

theorem Bay.WithinState.ledFollowsState {x y : Bay} (h : x.WithinState y) (hx : x.ledFollowsState = true) :
    y.ledFollowsState = true := by
  rw [Bay.ledFollowsState_iff] at hx ⊢
  have hw : y.ledWanted = x.ledWanted := by
    simp only [Bay.ledWanted, h.state, h.inputs.ejectorOpen, h.flagA, h.flagB]
  have hl : y.ledLineHolds = x.ledLineHolds := by
    simp only [Bay.ledLineHolds, h.led, h.ledPattern, h.ledTimer]
  rw [h.ledPattern, hw, hl]
  exact hx

theorem Work.Goes.ledFollowsState {c : Ctx} {w v : Work} (h : Work.Goes c w v)
    (hw : w.bay.ledFollowsState = true) : v.bay.ledFollowsState = true := by
  induction h with
  | stay => exact hw
  | edit f _ hf ih => exact hf.ledFollowsState ih
  | enter st _ _ _ ih => exact Bay.ledFollowsState_relight _ _ ((Bay.ledFollowsState_iff _).mp ih).2

/-! ### Each entry of the sequencer is a chain of entries -/

namespace Work.Goes
variable {c : Ctx} {w v : Work}

/-- An entry to a state that nothing guards. -/
theorem reach (st : BayState) (h : Goes c w v) (hst : st ∉ [.empty, .spinningUp, .released]) : Goes c w (v.enter c st) :=
  h.enter st (fun hm => hst (by revert hm; simp; tauto)) fun he => absurd (by simp [he]) hst

theorem dropSpin (h : Goes c w v) : Goes c w (v.edit (Bay.dropSpin c)) := h.edit _ (Bay.withinState_dropSpin c _)

theorem park (h : Goes c w v) : Goes c w (v.edit (Bay.park c)) := h.edit _ (Bay.withinState_park c _)

theorem clearRetry (h : Goes c w v) : Goes c w (v.edit Bay.clearRetry) := h.edit _ (Bay.withinState_clearRetry _)

theorem toReleased (h : Goes c w v) (hs : v.bay.state ≠ .released) (hf : v.bay.freed = true) :
    Goes c w (v.toReleased c) :=
  h.dropSpin.enter _ (by decide) fun _ => ⟨by simpa using hs, by simpa [Bay.freed] using hf⟩

theorem toQueued (h : Goes c w v) : Goes c w (v.toQueued c) := h.dropSpin.reach _ (by decide)

theorem idleTest (h : Goes c w v) (hs : v.bay.state ≠ .released) : Goes c w (v.idleTest c) := by
  obtain ⟨hr, e⟩ | ⟨-, -, e⟩ | ⟨-, -, e⟩ := v.idleTest_cases c <;> rw [e]
  · refine h.toReleased hs ?_
    simp only [Bay.releaseCondition, Bool.and_eq_true] at hr
    exact hr.2
  exacts [h.toQueued, h]

theorem toIdle (h : Goes c w v) : Goes c w (v.toIdle c) := idleTest (h.dropSpin.reach _ (by decide)) (by simp)

theorem releasedTest (h : Goes c w v) : Goes c w (v.releasedTest c) := by
  unfold Work.releasedTest
  split
  exacts [h, h.toIdle]

theorem toFaulted (h : Goes c w v) (kind : FaultKind) (keepSpin : Bool) : Goes c w (v.toFaulted c kind keepSpin) := by
  unfold Work.toFaulted
  refine edit _ (reach _ ?_ (by decide))
    ⟨⟨rfl, rfl, rfl, rfl, rfl⟩, ⟨rfl, rfl⟩, rfl, rfl, Bay.restIfQuiet_monitorRuns⟩
  split
  exacts [h, h.dropSpin]

theorem toSpinningDown (h : Goes c w v) (mayWatch : Bool) : Goes c w (v.toSpinningDown c mayWatch) := by
  have hv := (h.dropSpin.reach .spinningDown (by decide)).edit _ (Bay.withinState_startSpindown c mayWatch _)
  obtain ⟨-, -, e⟩ | ⟨-, e⟩ := v.toSpinningDown_cases c mayWatch <;> rw [e]
  exacts [hv.toIdle, hv]

theorem toReady (h : Goes c w v) : Goes c w (v.toReady c) :=
  (h.reach _ (by decide)).edit _ ⟨⟨rfl, rfl, rfl, rfl, rfl⟩, ⟨rfl, rfl⟩, rfl, rfl, id⟩

theorem startSettle (h : Goes c w v) : Goes c w (v.startSettle c) := by
  unfold Work.startSettle
  split
  exacts [h.toReady, h.edit _ ⟨⟨rfl, rfl, rfl, rfl, rfl⟩, ⟨rfl, rfl⟩, rfl, rfl, id⟩]

theorem toLoading (h : Goes c w v) : Goes c w (v.toLoading c) := by
  have hv := (h.reach .loading (by decide)).edit
    (fun x => { x with
      hld := true
      phase := some .seek
      headTimer := some (.load, dueAfter c.now x.timing.loadTime) })
    ⟨⟨rfl, rfl, rfl, rfl, rfl⟩, ⟨rfl, rfl⟩, rfl, rfl, id⟩
  unfold Work.toLoading
  dsimp only
  split
  exacts [hv, hv.startSettle]

theorem toRetracting (h : Goes c w v) (cause : Cause) : Goes c w (v.toRetracting c cause) :=
  (h.reach _ (by decide)).edit _ ⟨⟨rfl, rfl, rfl, rfl, rfl⟩, ⟨rfl, rfl⟩, rfl, rfl, id⟩

theorem spunTest (h : Goes c w v) : Goes c w (v.spunTest c) := by
  obtain ⟨-, e⟩ | ⟨-, -, e⟩ | ⟨-, -, e⟩ := v.spunTest_cases c <;> rw [e]
  exacts [h.toSpinningDown _, h.toLoading, h.edit _ (Bay.withinState_aimDwell c _)]

theorem toSpun (h : Goes c w v) (fromSpinup : Bool) : Goes c w (v.toSpun c fromSpinup) := by
  have hv := h.reach .spun (by decide)
  unfold Work.toSpun
  split
  · exact h.toFaulted _ _
  · split
    · exact h.toSpinningDown _
    · dsimp only
      split
      exacts [hv.toRetracting _, hv.spunTest]

theorem toUnloading (h : Goes c w v) : Goes c w (v.toUnloading c) := by
  have hv := (h.reach .unloading (by decide)).edit
    (fun x => { x with headTimer := some (.unload, dueAfter c.now x.timing.unloadTime) })
    ⟨⟨rfl, rfl, rfl, rfl, rfl⟩, ⟨rfl, rfl⟩, rfl, rfl, id⟩
  unfold Work.toUnloading
  dsimp only
  split
  exacts [hv.park.toSpun _, hv]

theorem retractParked (h : Goes c w v) : Goes c w (v.retractParked c) := by
  have hv := h.edit (fun x => { x.park c with rtr := false }) ⟨⟨rfl, rfl, rfl, rfl, rfl⟩, ⟨rfl, rfl⟩, rfl, rfl, id⟩
  unfold Work.retractParked
  dsimp only
  split
  · split
    exacts [hv.toFaulted _ _, hv.toSpinningDown _]
  · exact hv.toFaulted _ _
  · exact hv.toSpun _

/-! ### So is each response to an event, past its own edit of the record -/

theorem demandWritten (h : Goes c w v) (old : Demand) : Goes c w (v.demandWritten c old) := by
  have hs : Goes c w (if old ≠ v.bay.merged ∧ v.bay.merged = .stop then v.edit Bay.clearRetry else v) := by
    split
    exacts [h.clearRetry, h]
  unfold Work.demandWritten
  dsimp only
  split
  next hst => exact hs.idleTest (by split <;> simp [hst])
  · exact h.releasedTest
  · split
    next => rw [if_pos ‹_›] at hs; exact hs.toIdle
    next => exact h
  · split
    next => rw [if_pos ‹_›] at hs; exact hs.toSpinningDown _
    next => exact h
  · split
    exacts [h.spunTest, h]
  · split
    · split
      exacts [h.toRetracting _, h.toUnloading]
    · exact h
  · split
    exacts [h.toUnloading, h]
  · exact hs
  all_goals exact h

theorem motionChanged (h : Goes c w v) : Goes c w (v.motionChanged c) := by
  unfold Work.motionChanged
  dsimp only
  split
  · split
    exacts [h.clearRetry.toSpinningDown _, h]
  · exact h.spunTest
  · split
    · split
      exacts [h.toRetracting _, h]
    · split
      · exact h.toRetracting _
      · split
        exacts [h.toUnloading, h]
  · split
    · exact h.toRetracting _
    · split
      exacts [h.toUnloading, h]
  · split
    exacts [h.toRetracting _, h]
  all_goals exact h

theorem ejectorOpened (h : Goes c w v) : Goes c w (v.ejectorOpened c) := by
  unfold Work.ejectorOpened
  split
  next hst => exact h.clearRetry.idleTest (by rw [Work.edit_bay]; simp [Bay.clearRetry, hst])
  · exact h.clearRetry.toIdle
  · exact h.clearRetry.toSpinningDown _
  · exact h.spunTest
  · split
    exacts [h.toRetracting _, h.toUnloading]
  · exact h.toUnloading
  · exact h.toRetracting _
  · exact h.clearRetry
  all_goals exact h

theorem ejectorClosed (h : Goes c w v) : Goes c w (v.ejectorClosed c) := by
  unfold Work.ejectorClosed
  split
  next hst => exact h.idleTest (by simp [hst])
  exacts [h.releasedTest, h.spunTest, h]

theorem fltAsserted (h : Goes c w v) : Goes c w (v.fltAsserted c) := by
  unfold Work.fltAsserted
  split
  iterate 5 exact h.toFaulted _ _
  iterate 3 exact h.toRetracting _
  all_goals exact h

theorem watchParked (h : Goes c w v) : Goes c w (v.watchParked c) := by
  have hv := h.edit (fun x => { x.park c with unloadWatch := none }) ⟨⟨rfl, rfl, rfl, rfl, rfl⟩, ⟨rfl, rfl⟩, rfl, rfl, id⟩
  unfold Work.watchParked
  dsimp only
  split
  · exact hv.toIdle
  · split
    exacts [hv.toFaulted _ _, hv]

theorem prkAsserted (h : Goes c w v) : Goes c w (v.prkAsserted c) := by
  unfold Work.prkAsserted
  split
  · split
    exacts [h.watchParked, h]
  · split
    exacts [h.park.toSpun _, h]
  · exact h.park.toSpun _
  · exact h.park.toSpun _
  · split
    exacts [h, h.retractParked]
  all_goals exact h

theorem prkDropped (h : Goes c w v) : Goes c w (v.prkDropped c) := by
  unfold Work.prkDropped
  split
  · exact h.toRetracting _
  · split
    exacts [h.startSettle, h]
  · exact h

theorem speedLost (h : Goes c w v) : Goes c w (v.speedLost c) := by
  unfold Work.speedLost
  split
  · exact h.toFaulted _ _
  iterate 3 exact h.toRetracting _
  exact h

theorem spindownTimedOut (h : Goes c w v) : Goes c w (v.spindownTimedOut c) := by
  unfold Work.spindownTimedOut
  split
  exacts [h.edit _ ⟨⟨rfl, rfl, rfl, rfl, rfl⟩, ⟨rfl, rfl⟩, rfl, rfl, id⟩, h.toFaulted _ _]

theorem dwellRanOut (h : Goes c w v) : Goes c w (v.dwellRanOut c) := by
  have hv := h.edit (fun x => { x with dwellTimer := none }) ⟨⟨rfl, rfl, rfl, rfl, rfl⟩, ⟨rfl, rfl⟩, rfl, rfl, id⟩
  unfold Work.dwellRanOut
  dsimp only
  split
  exacts [hv.toLoading, hv]

theorem loadTimedOut (h : Goes c w v) : Goes c w (v.loadTimedOut c) :=
  h.edit _ ⟨⟨rfl, rfl, rfl, rfl, rfl⟩, ⟨rfl, rfl⟩, rfl, rfl, id⟩

theorem withdrawRanOut (h : Goes c w v) : Goes c w (v.withdrawRanOut c) := by
  unfold Work.withdrawRanOut
  split
  exacts [h.park.toFaulted _ _, h.toRetracting _]

theorem pulseEnded (h : Goes c w v) : Goes c w (v.pulseEnded c) := by
  have hv := h.edit (fun x => { x with rtr := false, pulseTimer := none })
    ⟨⟨rfl, rfl, rfl, rfl, rfl⟩, ⟨rfl, rfl⟩, rfl, rfl, id⟩
  unfold Work.pulseEnded
  dsimp only
  split
  exacts [hv.retractParked, hv]

theorem retractRanOut (h : Goes c w v) : Goes c w (v.retractRanOut c) := by
  unfold Work.retractRanOut
  split
  exacts [h.retractParked, h.toFaulted _ _]

theorem inState (h : Goes c w v) (st : BayState) (act : Work → Work) (hact : Goes c w (act v)) :
    Goes c w (v.inState st act) := by
  unfold Work.inState
  split
  exacts [hact, h]

end Work.Goes

end Sys2Proof.Machine
end

section
/-!
The responses of a bay's sequencer as one type, and what each of them does before its first state entry.
-/

namespace Sys2Proof.Machine

/-- The responses of one bay to an event: what SET DEMAND, RELEASE BAY, PORT RESTART, CLEAR FAULT and a grant bring it,
the ends of its filters, its speed monitor, and its timers. -/
inductive Act where
  | writeDemand (p : Port) (level : Demand)
  | askRelease (p : Port)
  | restartFlag (p : Port)
  | faultCleared
  | granted (sn : Snapshot)
  | presence | ejector | flt | prk
  | pulse | absence | quiet
  | spinup | spindown | watch | dwell
  | load | settle | withdraw | unload | retractPulse | retract

/-- What the sequencer does in a response. -/
def Act.run : Act → Ctx → Work → Work
  | .writeDemand p level => Work.writeDemand p level
  | .askRelease p => Work.askRelease p
  | .restartFlag p => Work.restartFlag p
  | .faultCleared => Work.faultCleared
  | .granted sn => Work.granted sn
  | .presence => fun c w =>
    if w.bay.prs = w.bay.present then w.edit fun x => { x with prsTimer := none }
    else w.presenceSettled w.bay.prs c
  | .ejector => fun c w =>
    if w.bay.ejc = w.bay.ejectorOpen then w.edit fun x => { x with ejcTimer := none }
    else w.ejectorSettled w.bay.ejc c
  | .flt => fun c w =>
    if w.bay.flt = w.bay.fltOn then w.edit fun x => { x with fltTimer := none }
    else w.fltFiltered w.bay.flt c
  | .prk => fun c w =>
    if w.bay.prk = w.bay.prkOn then w.edit fun x => { x with prkTimer := none }
    else w.prkFiltered w.bay.prk c
  | .pulse => Work.pulse
  | .absence => Work.absence
  | .quiet => Work.quietRanOut
  | .spinup => fun c => Work.inState .spinningUp (Work.spinupTimedOut c)
  | .spindown => fun c => Work.inState .spinningDown (Work.spindownTimedOut c)
  | .watch => fun c => Work.inState .spinningDown (Work.toFaulted c .headsStuck true)
  | .dwell => fun c => Work.inState .spun (Work.dwellRanOut c)
  | .load => fun c => Work.inState .loading (Work.loadTimedOut c)
  | .settle => fun c => Work.inState .loading (Work.toReady c)
  | .withdraw => fun c => Work.inState .loading (Work.withdrawRanOut c)
  | .unload => fun c => Work.inState .unloading (Work.toRetracting c (.fault .headsStuck))
  | .retractPulse => fun c => Work.inState .retracting (Work.pulseEnded c)
  | .retract => fun c => Work.inState .retracting (Work.retractRanOut c)

/-- The timer whose expiry brings a response, for those that a timer brings. -/
def Act.timer : Act → Bay → Option Micros
  | .presence => Bay.prsTimer
  | .ejector => Bay.ejcTimer
  | .flt => Bay.fltTimer
  | .prk => Bay.prkTimer
  | .absence => Bay.absenceTimer
  | .quiet => Bay.quietTimer
  | .spinup => Bay.spinupTimer
  | .spindown => Bay.spindownTimer
  | .watch => Bay.unloadWatch
  | .dwell => Bay.dwellTimer
  | .load => Bay.headDue .load
  | .settle => Bay.headDue .settle
  | .withdraw => Bay.headDue .withdraw
  | .unload => Bay.headDue .unload
  | .retractPulse => Bay.pulseTimer
  | .retract => Bay.headDue .retract
  | _ => fun _ => none

/-- The response is the removal of the carrier (R156). -/
def Act.removes (a : Act) (x : Bay) : Prop := a = .presence ∧ x.prs = false ∧ x.present = true

theorem Act.run_removes {a : Act} {x : Bay} (h : a.removes x) (c : Ctx) :
    a.run c ⟨x, []⟩ = Work.toEmpty c ⟨{ x with present := false, prsTimer := none }, []⟩ := by
  obtain ⟨rfl, hprs, hpresent⟩ := h
  simp only [Act.run, Work.presenceSettled, Work.edit, hprs, hpresent, Bool.false_eq_true, if_false]

/-- What a response hands on before its first entry: nothing, the settled change of its ejector, or a demand raised
(R154, R163). -/
inductive Act.Heads (a : Act) (x : Bay) (v : Work) : Prop where
  | nothing : v.facts = [] → v.bay.ejectorOpen = x.ejectorOpen → Heads a x v
  | ejector : a = .ejector → v.facts = [.ejectorSet v.bay.ejectorOpen] → Heads a x v
  | demand (p : Port) (level : Demand) : a = .writeDemand p level → v.facts = [.demandRaised p] →
      v.bay.ejectorOpen = x.ejectorOpen → v.bay.demand p ≠ .stop → Heads a x v

/-- What a response but a removal and a grant does before its first entry: it writes the demand and the flag of its
port, and touches neither the state nor its stamp nor the snapshot. -/
structure Act.Opens (a : Act) (x : Bay) (v : Work) : Prop where
  state : v.bay.state = x.state
  since : v.bay.since = x.since
  facts : entries v.facts = []
  demand : ∀ p, v.bay.demand p = x.demand p ∨ (∃ level, a = .writeDemand p level) ∨ a = .askRelease p
  snapshot : v.bay.snapshot = x.snapshot
  light : x.ledFollowsState = true → v.bay.ledFollowsState = true
  monitor : x.state ≠ .empty → (a = .absence → x.spin = true) → x.monitorRuns = true → v.bay.monitorRuns = true
  heads : a.Heads x v
  flag : ∀ p, v.bay.flag p = x.flag p ∨ a = .askRelease p ∧ v.bay.flag p = true ∨
    v.bay.flag p = false ∧ (a = .restartFlag p ∨ v.facts = [.demandRaised p])
  follows : x.flagsFollowDemands = true → v.bay.flagsFollowDemands = true

theorem Act.opens_self (a : Act) (x : Bay) : a.Opens x ⟨x, []⟩ :=
  ⟨rfl, rfl, rfl, fun _ => .inl rfl, rfl, id, fun _ _ => id, .nothing rfl rfl, fun _ => .inl rfl, id⟩

theorem Bay.ledFollowsState_congr {x y : Bay}
    (h : (y.state, y.ejectorOpen, y.flagA, y.flagB, y.led, y.ledPattern, y.ledTimer) =
      (x.state, x.ejectorOpen, x.flagA, x.flagB, x.led, x.ledPattern, x.ledTimer)) :
    y.ledFollowsState = x.ledFollowsState := by
  simp only [Prod.mk.injEq] at h
  obtain ⟨h1, h2, h3, h4, h5, h6, h7⟩ := h
  simp only [Bay.ledFollowsState, h1, h2, h3, h4, h5, h6, h7]

theorem Bay.ledLineHolds_congr {x y : Bay}
    (h : (y.led, y.ledPattern, y.ledTimer) = (x.led, x.ledPattern, x.ledTimer)) : y.ledLineHolds = x.ledLineHolds := by
  simp only [Prod.mk.injEq] at h
  simp only [Bay.ledLineHolds, h]

section
variable {x y : Bay}
  (h : (y.state, y.ejectorOpen, y.flagA, y.flagB, y.led, y.ledPattern, y.ledTimer) =
    (x.state, x.ejectorOpen, x.flagA, x.flagB, x.led, x.ledPattern, x.ledTimer))
include h

theorem Bay.flag_congr (p : Port) : y.flag p = x.flag p := by
  cases p
  exacts [congrArg (·.2.2.1) h, congrArg (·.2.2.2.1) h]

theorem Bay.flagsFollowDemands_congr (hd : (y.demandA, y.demandB) = (x.demandA, x.demandB)) :
    y.flagsFollowDemands = x.flagsFollowDemands := by
  simp only [Prod.mk.injEq] at h hd
  simp only [Bay.flagsFollowDemands, h, hd]

end

/-- An edit that reaches no demand, no flag, no snapshot and not the LED opens every response. -/
theorem Act.opens_edit (a : Act) {x y : Bay} (hsince : y.since = x.since)
    (h : (y.state, y.ejectorOpen, y.flagA, y.flagB, y.led, y.ledPattern, y.ledTimer) =
      (x.state, x.ejectorOpen, x.flagA, x.flagB, x.led, x.ledPattern, x.ledTimer))
    (hd : (y.demandA, y.demandB) = (x.demandA, x.demandB)) (hs : y.snapshot = x.snapshot)
    (hm : x.state ≠ .empty → (a = .absence → x.spin = true) → x.monitorRuns = true → y.monitorRuns = true) :
    a.Opens x ⟨y, []⟩ := by
  refine ⟨congrArg (·.1) h, hsince, rfl, fun p => .inl ?_, hs, fun hx => ?_, hm, .nothing rfl (congrArg (·.2.1) h),
    fun p => .inl ?_, fun hx => ?_⟩
  · cases p
    exacts [congrArg (·.1) hd, congrArg (·.2) hd]
  · rw [Bay.ledFollowsState_congr h]; exact hx
  · exact Bay.flag_congr h p
  · rw [Bay.flagsFollowDemands_congr h hd]; exact hx

theorem Act.Opens.edit {a : Act} {x : Bay} {v : Work} (h : a.Opens x v) (f : Bay → Bay)
    (hsince : (f v.bay).since = v.bay.since)
    (hl : ((f v.bay).state, (f v.bay).ejectorOpen, (f v.bay).flagA, (f v.bay).flagB, (f v.bay).led,
        (f v.bay).ledPattern, (f v.bay).ledTimer) =
      (v.bay.state, v.bay.ejectorOpen, v.bay.flagA, v.bay.flagB, v.bay.led, v.bay.ledPattern, v.bay.ledTimer))
    (hd : ((f v.bay).demandA, (f v.bay).demandB) = (v.bay.demandA, v.bay.demandB))
    (hs : (f v.bay).snapshot = v.bay.snapshot)
    (hm : x.state ≠ .empty → v.bay.monitorRuns = true → (f v.bay).monitorRuns = true) : a.Opens x (v.edit f) := by
  refine ⟨(congrArg (·.1) hl).trans h.state, hsince.trans h.since, h.facts, fun p => ?_, ?_, fun hx => ?_,
    fun hne hspin hx => hm hne (h.monitor hne hspin hx), ?_, fun p => ?_, fun hx => ?_⟩
  · have hp : (f v.bay).demand p = v.bay.demand p := by
      cases p
      exacts [congrArg (·.1) hd, congrArg (·.2) hd]
    exact (h.demand p).imp_left hp.trans
  · exact hs.trans h.snapshot
  · rw [Work.edit_bay, Bay.ledFollowsState_congr hl]; exact h.light hx
  · have he : (f v.bay).ejectorOpen = v.bay.ejectorOpen := congrArg (·.2.1) hl
    cases h.heads with
    | nothing hf ho => exact .nothing hf (he.trans ho)
    | ejector ha hf => exact .ejector ha (hf.trans (by rw [Work.edit_bay, he]))
    | demand p level ha hf ho hp =>
      refine .demand p level ha hf (he.trans ho) ?_
      have hsame : (f v.bay).demand p = v.bay.demand p := by
        cases p
        exacts [congrArg (·.1) hd, congrArg (·.2) hd]
      exact hsame ▸ hp
  · rw [Work.edit_bay, Bay.flag_congr hl]; exact h.flag p
  · rw [Work.edit_bay, Bay.flagsFollowDemands_congr hl hd]; exact h.follows hx

/-! ### What keeps the speed monitor consistent outside EMPTY -/

theorem Bay.takePulse_monitorRuns (c : Ctx) {x : Bay} (h : x.monitorRuns = true) : (x.takePulse c).monitorRuns = true := by
  simp only [Bay.monitorRuns, Bool.and_eq_true] at h ⊢
  obtain ⟨⟨⟨h, habsence⟩, -⟩, -⟩ := h
  refine ⟨⟨⟨h, ?_⟩, rfl⟩, rfl⟩
  cases hs : x.spin <;> simp_all [Bay.takePulse]

theorem Bay.countIn_monitorRuns {x : Bay} (h : x.monitorRuns = true) : x.countIn.monitorRuns = true := by
  simp only [Bay.monitorRuns, Bool.and_eq_true] at h ⊢
  obtain ⟨⟨⟨⟨-, htries⟩, habsence⟩, hquiet⟩, hrest⟩ := h
  exact ⟨⟨⟨⟨by simp [Bay.countIn], htries⟩, habsence⟩, hquiet⟩, hrest⟩

theorem Bay.countOut_monitorRuns {x : Bay} (h : x.monitorRuns = true) : x.countOut.monitorRuns = true := by
  simp only [Bay.monitorRuns, Bool.and_eq_true] at h ⊢
  obtain ⟨⟨⟨⟨-, htries⟩, habsence⟩, hquiet⟩, hrest⟩ := h
  exact ⟨⟨⟨⟨by simp [Bay.countOut], htries⟩, habsence⟩, hquiet⟩, hrest⟩

section
variable {x y : Bay}

/-- Tries used may be any number up to 4 (R18). -/
theorem Bay.monitorRuns_of_tries (n : Nat) (hn : n ≤ 4)
    (hy : (y.inRun, y.outRun, y.absenceTimer, y.spin, y.quietTimer, y.quietElapsed, y.restMark, y.tries) =
      (x.inRun, x.outRun, x.absenceTimer, x.spin, x.quietTimer, x.quietElapsed, x.restMark, n) := by rfl)
    (h : x.monitorRuns = true) : y.monitorRuns = true := by
  simp only [Prod.mk.injEq] at hy
  simp only [Bay.monitorRuns, hy, Bool.and_eq_true, decide_eq_true_eq] at h ⊢
  obtain ⟨⟨⟨⟨hruns, -⟩, habsence⟩, hquiet⟩, hrest⟩ := h
  exact ⟨⟨⟨⟨hruns, hn⟩, habsence⟩, hquiet⟩, hrest⟩

/-- The absence timer runs anew while SPIN is asserted (R65). -/
theorem Bay.monitorRuns_of_absence (hspin : x.spin = true) (due : Micros) (h : x.monitorRuns = true) :
    ({ x with reference := none, lastPeriod := none, absenceTimer := some due } : Bay).monitorRuns = true := by
  simp only [Bay.monitorRuns, Bool.and_eq_true] at h ⊢
  obtain ⟨⟨⟨h, -⟩, hquiet⟩, hrest⟩ := h
  exact ⟨⟨⟨h, by simp [hspin]⟩, hquiet⟩, hrest⟩

/-- Quiet has elapsed, and its timer is stopped (R71). -/
theorem Bay.monitorRuns_of_quiet (h : x.monitorRuns = true) :
    ({ x with quietTimer := none, quietElapsed := true, reference := none, lastPeriod := none } : Bay).monitorRuns =
      true := by
  simp only [Bay.monitorRuns, Bool.and_eq_true] at h ⊢
  obtain ⟨⟨h, -⟩, hrest⟩ := h
  refine ⟨⟨h, rfl⟩, ?_⟩
  revert hrest
  cases x.restMark <;> simp

/-- The rest mark may be set once quiet has elapsed with SPIN deasserted (R28). -/
theorem Bay.monitorRuns_of_rest (hspin : x.spin = false) (hquiet : x.quietElapsed = true) (h : x.monitorRuns = true) :
    ({ x with restMark := true } : Bay).monitorRuns = true := by
  simp only [Bay.monitorRuns, Bool.and_eq_true] at h ⊢
  exact ⟨h.1, by simp [hspin, hquiet]⟩

end

/-- Writing a demand or a flag and recomputing the LED keeps the LED right. -/
theorem Bay.ledFollowsState_rewrite (c : Ctx) {x y : Bay}
    (h : (y.led, y.ledPattern, y.ledTimer) = (x.led, x.ledPattern, x.ledTimer)) (hx : x.ledFollowsState = true) :
    (y.relight c).ledFollowsState = true := by
  refine Bay.ledFollowsState_relight c _ ?_
  rw [Bay.ledLineHolds_congr h]
  exact ((Bay.ledFollowsState_iff x).mp hx).2

theorem Bay.setDemand_light (x : Bay) (p : Port) (d : Demand) :
    ((x.setDemand p d).led, (x.setDemand p d).ledPattern, (x.setDemand p d).ledTimer) =
      (x.led, x.ledPattern, x.ledTimer) := by
  cases p <;> rfl

theorem Bay.setFlag_light (x : Bay) (p : Port) (f : Bool) :
    ((x.setFlag p f).led, (x.setFlag p f).ledPattern, (x.setFlag p f).ledTimer) =
      (x.led, x.ledPattern, x.ledTimer) := by
  cases p <;> rfl

@[simp] theorem Bay.demand_relight (c : Ctx) (x : Bay) (p : Port) : (x.relight c).demand p = x.demand p := by
  cases p <;> simp [Bay.demand]

@[simp] theorem Bay.flag_relight (c : Ctx) (x : Bay) (p : Port) : (x.relight c).flag p = x.flag p := by
  cases p <;> simp [Bay.flag]

theorem Bay.demand_setDemand_of_ne (x : Bay) {p q : Port} (d : Demand) (h : q ≠ p) :
    (x.setDemand p d).demand q = x.demand q := by
  cases p <;> cases q <;> first | rfl | exact absurd rfl h

theorem Bay.flag_setFlag_of_ne (x : Bay) {p q : Port} (f : Bool) (h : q ≠ p) : (x.setFlag p f).flag q = x.flag q := by
  cases p <;> cases q <;> first | rfl | exact absurd rfl h

/-- A set flag goes with STOP in its port's column (R12). -/
theorem Bay.flagsFollowDemands_iff (x : Bay) :
    x.flagsFollowDemands = true ↔ ∀ p, x.flag p = true → x.demand p = .stop := by
  simp only [Bay.flagsFollowDemands, Bool.and_eq_true, Bool.or_eq_true, Bool.not_eq_true', decide_eq_true_eq,
    ← Bool.not_eq_true, ← imp_iff_not_or]
  exact ⟨fun h p => by cases p; exacts [h.1, h.2], fun h => ⟨h .a, h .b⟩⟩

theorem Act.opens_writeDemand (p : Port) (level : Demand) (c : Ctx) (x : Bay) :
    ∃ v, (Act.writeDemand p level).Opens x v ∧ Work.Goes c v (Work.writeDemand p level c ⟨x, []⟩) := by
  have hdemand : ∀ q, (x.setDemand p level).demand q = x.demand q ∨
      (∃ l, Act.writeDemand p level = .writeDemand q l) ∨ Act.writeDemand p level = .askRelease q := fun q => by
    by_cases hq : q = p
    · exact .inr (.inl ⟨level, by rw [hq]⟩)
    · exact .inl (Bay.demand_setDemand_of_ne x level hq)
  unfold Work.writeDemand
  dsimp only
  split
  · split
    next hl =>
      subst hl
      refine ⟨_, ⟨?_, ?_, rfl, hdemand, ?_, fun hx => ?_, fun _ _ h => ?_, .nothing rfl (by simp),
        fun q => .inl (by cases p <;> cases q <;> rfl), fun h => ?_⟩, Work.Goes.stay.demandWritten _⟩
      iterate 3 simp
      · rw [← hx]
        exact Bay.ledFollowsState_congr (by simp)
      · simpa [Bay.monitorRuns] using h
      · rw [Bay.flagsFollowDemands_iff] at h ⊢
        intro q hq
        by_cases hqp : q = p
        · simp [hqp]
        · rw [Work.edit_bay, Bay.demand_setDemand_of_ne x _ hqp]
          exact h q (by revert hq; cases p <;> cases q <;> exact id)
    next hl =>
      refine ⟨_, ⟨?_, ?_, rfl, fun q => ?_, ?_, fun hx => ?_, fun _ _ h => ?_,
        .demand p level rfl rfl (by simp) (by simpa using hl),
        fun q => ?_, fun h => ?_⟩, Work.Goes.stay.demandWritten _⟩
      · simp
      · simp
      · rw [Bay.demand_relight, Bay.demand_setFlag]; exact hdemand q
      · simp
      · exact Bay.ledFollowsState_rewrite c ((Bay.setFlag_light _ _ _).trans (Bay.setDemand_light _ _ _)) hx
      · simpa [Bay.monitorRuns] using h
      · by_cases hqp : q = p
        · exact .inr (.inr ⟨by simp [hqp], .inr (by simp [hqp])⟩)
        · exact .inl (by rw [Bay.flag_relight, Bay.flag_setFlag_of_ne _ _ hqp, Bay.flag_setDemand])
      · rw [Bay.flagsFollowDemands_iff] at h ⊢
        intro q hq
        by_cases hqp : q = p
        · simp [hqp] at hq
        · rw [Bay.flag_relight, Bay.flag_setFlag_of_ne _ _ hqp, Bay.flag_setDemand] at hq
          rw [Bay.demand_relight, Bay.demand_setFlag, Bay.demand_setDemand_of_ne x _ hqp]
          exact h q hq
  · exact ⟨_, Act.opens_self _ _, .stay⟩

theorem Act.opens_askRelease (p : Port) (c : Ctx) (x : Bay) :
    ∃ v, (Act.askRelease p).Opens x v ∧ Work.Goes c v (Work.askRelease p c ⟨x, []⟩) := by
  unfold Work.askRelease
  dsimp only
  split
  · exact ⟨_, Act.opens_self _ _, .stay⟩
  · refine ⟨_, ⟨?_, ?_, rfl, fun q => ?_, ?_, fun hx => ?_, fun _ _ h => ?_, .nothing rfl (by simp), fun q => ?_,
      fun h => ?_⟩, Work.Goes.stay.demandWritten _⟩
    · simp
    · simp
    · by_cases hq : q = p
      · exact .inr (.inr (by rw [hq]))
      · exact .inl (by simp [Bay.demand_setDemand_of_ne x _ hq])
    · simp
    · exact Bay.ledFollowsState_rewrite c ((Bay.setFlag_light _ _ _).trans (Bay.setDemand_light _ _ _)) hx
    · simpa [Bay.monitorRuns] using h
    · by_cases hqp : q = p
      · exact .inr (.inl (by simp [hqp]))
      · exact .inl (by rw [Work.edit_bay, Bay.flag_relight, Bay.flag_setFlag_of_ne _ _ hqp, Bay.flag_setDemand])
    · rw [Bay.flagsFollowDemands_iff] at h ⊢
      intro q hq
      by_cases hqp : q = p
      · simp [hqp]
      · rw [Work.edit_bay, Bay.flag_relight, Bay.flag_setFlag_of_ne _ _ hqp, Bay.flag_setDemand] at hq
        rw [Work.edit_bay, Bay.demand_relight, Bay.demand_setFlag, Bay.demand_setDemand_of_ne x _ hqp]
        exact h q hq

theorem Act.opens_restartFlag (p : Port) (c : Ctx) (x : Bay) :
    ∃ v, (Act.restartFlag p).Opens x v ∧ Work.Goes c v (Work.restartFlag p c ⟨x, []⟩) := by
  refine ⟨(Work.edit (fun x => (x.setFlag p false).relight c) ⟨x, []⟩), ⟨?_, ?_, rfl, fun q => .inl ?_, ?_, ?_,
    fun _ _ h => ?_, .nothing rfl (by simp), fun q => ?_, fun h => ?_⟩, ?_⟩
  iterate 4 simp
  · exact Bay.ledFollowsState_rewrite c (Bay.setFlag_light _ _ _)
  · simpa [Bay.monitorRuns] using h
  · by_cases hqp : q = p
    · exact .inr (.inr (by simp [hqp]))
    · exact .inl (by rw [Work.edit_bay, Bay.flag_relight, Bay.flag_setFlag_of_ne _ _ hqp])
  · rw [Bay.flagsFollowDemands_iff] at h ⊢
    intro q hq
    by_cases hqp : q = p
    · simp [hqp] at hq
    · rw [Work.edit_bay, Bay.flag_relight, Bay.flag_setFlag_of_ne _ _ hqp] at hq
      simpa using h q hq
  · unfold Work.restartFlag
    dsimp only
    split
    exacts [Work.Goes.stay.releasedTest, .stay]

theorem Act.opens_pulse (c : Ctx) (x : Bay) :
    ∃ v, Act.pulse.Opens x v ∧ Work.Goes c v (Work.pulse c ⟨x, []⟩) := by
  have hidx : Act.pulse.Opens x (Work.edit (fun x => { x with idx := true }) ⟨x, []⟩) :=
    Act.opens_edit _ rfl rfl rfl rfl fun _ _ => id
  have htaken := hidx.edit (Bay.takePulse c) rfl rfl rfl rfl fun _ => Bay.takePulse_monitorRuns c
  unfold Work.pulse
  dsimp only
  split
  · exact ⟨_, hidx, .stay⟩
  split
  · exact ⟨_, htaken, .stay⟩
  split
  · exact ⟨_, hidx, .stay⟩
  next d _ =>
    generalize stampSince _ _ = d
    have hperiod := hidx.edit (fun x => ({ x with lastPeriod := some (min 65535 d) }).takePulse c) rfl rfl rfl rfl
      fun _ => Bay.takePulse_monitorRuns c
    have hin := hperiod.edit Bay.countIn rfl rfl rfl rfl fun _ => Bay.countIn_monitorRuns
    have hout := hperiod.edit Bay.countOut rfl rfl rfl rfl fun _ => Bay.countOut_monitorRuns
    have hspeed := hin.edit (fun x => { x with tries := 0, retry := false, spinupTimer := none }) rfl rfl rfl rfl
      fun _ => Bay.monitorRuns_of_tries 0 (by omega)
    unfold Work.periodMeasured
    dsimp only
    split
    · split
      · split
        exacts [⟨_, hspeed, Work.Goes.stay.toSpun _⟩, ⟨_, hin, .stay⟩]
      · split
        exacts [⟨_, hout, Work.Goes.stay.speedLost⟩, ⟨_, hout, .stay⟩]
    · exact ⟨_, hperiod, .stay⟩

theorem Act.opens_ejector (c : Ctx) (x : Bay) :
    ∃ v, Act.ejector.Opens x v ∧ Work.Goes c v (Act.ejector.run c ⟨x, []⟩) := by
  dsimp only [Act.run]
  split
  · exact ⟨_, Act.opens_edit _ (y := { x with ejcTimer := none }) rfl rfl rfl rfl fun _ _ => id, .stay⟩
  · refine ⟨⟨Bay.relight c { x with ejectorOpen := x.ejc, ejcTimer := none }, [.ejectorSet x.ejc]⟩,
      ⟨by simp, by simp, rfl, fun q => .inl ?_, by simp, Bay.ledFollowsState_rewrite c rfl,
        fun _ _ h => by simpa [Bay.monitorRuns] using h, .ejector rfl (by simp), fun q => .inl (by cases q <;> simp [Bay.flag]),
        fun h => by simpa [Bay.flagsFollowDemands] using h⟩, ?_⟩
    · cases q <;> simp [Bay.demand]
    · unfold Work.ejectorSettled
      dsimp only
      split
      exacts [Work.Goes.stay.ejectorOpened, Work.Goes.stay.ejectorClosed]

/-- Every response but a removal and a grant opens with edits of its own and goes on by state entries. -/
theorem Act.opens (a : Act) (c : Ctx) (x : Bay) (h : ¬a.removes x) (hgrant : ∀ sn, a ≠ .granted sn) :
    ∃ v, a.Opens x v ∧ Work.Goes c v (a.run c ⟨x, []⟩) := by
  cases a with
  | writeDemand p level => exact Act.opens_writeDemand p level c x
  | askRelease p => exact Act.opens_askRelease p c x
  | restartFlag p => exact Act.opens_restartFlag p c x
  | pulse => exact Act.opens_pulse c x
  | ejector => exact Act.opens_ejector c x
  | faultCleared =>
    refine ⟨⟨{ x with tries := 0, fault := none }, []⟩, Act.opens_edit _ rfl rfl rfl rfl
      fun _ _ => Bay.monitorRuns_of_tries 0 (by omega), ?_⟩
    dsimp only [Act.run, Work.faultCleared]
    split
    exacts [Work.Goes.stay.toRetracting _, Work.Goes.stay.toSpinningDown _]
  | granted sn => exact absurd rfl (hgrant sn)
  | presence =>
    dsimp only [Act.run, Work.presenceSettled]
    split
    · exact ⟨_, Act.opens_edit _ (y := { x with prsTimer := none }) rfl rfl rfl rfl fun _ _ => id, .stay⟩
    next hne =>
      have hprs : x.prs = true := by
        by_contra hp
        simp only [Bool.not_eq_true] at hp
        exact h ⟨rfl, hp, by cases hq : x.present <;> simp_all⟩
      rw [if_pos hprs]
      have hp := Act.opens_edit .presence (x := x) (y := { x with present := x.prs, prsTimer := none }) rfl rfl rfl rfl fun _ _ => id
      split
      next hst =>
        have hr := hp.edit (fun x => { x with restMark := true, quietElapsed := true, quietTimer := none })
          rfl rfl rfl rfl fun hne => absurd hst hne
        split
        next ho =>
          refine ⟨_, hr, Work.Goes.stay.toReleased (fun hrel => ?_) ?_⟩
          · cases hst.symm.trans hrel
          · simp only [Bay.freed, Bool.or_eq_true]
            exact .inr ho
        next => exact ⟨_, hr, Work.Goes.stay.toIdle⟩
      next => exact ⟨_, hp, .stay⟩
  | flt =>
    dsimp only [Act.run, Work.fltFiltered]
    split
    · exact ⟨_, Act.opens_edit _ (y := { x with fltTimer := none }) rfl rfl rfl rfl fun _ _ => id, .stay⟩
    · have ho := Act.opens_edit .flt (x := x) (y := { x with fltOn := x.flt, fltTimer := none }) rfl rfl rfl rfl fun _ _ => id
      split
      · exact ⟨_, ho, Work.Goes.stay.fltAsserted⟩
      · split
        next hst => exact ⟨_, ho, Work.Goes.stay.idleTest fun hr => by cases hst.symm.trans hr⟩
        next => exact ⟨_, ho, .stay⟩
  | prk =>
    dsimp only [Act.run, Work.prkFiltered]
    split
    · exact ⟨_, Act.opens_edit _ (y := { x with prkTimer := none }) rfl rfl rfl rfl fun _ _ => id, .stay⟩
    · have ho := Act.opens_edit .prk (x := x) (y := { x with prkOn := x.prk, prkTimer := none }) rfl rfl rfl rfl fun _ _ => id
      split
      exacts [⟨_, ho, Work.Goes.stay.prkAsserted⟩, ⟨_, ho, Work.Goes.stay.prkDropped⟩]
  | absence =>
    dsimp only [Act.run, Work.absence]
    have ho := Act.opens_edit .absence (x := x) (y := { x.countOut with
      reference := none, lastPeriod := none, absenceTimer := some (c.now + 2 * x.timing.pNom) }) rfl rfl rfl rfl
      fun _ hspin h => Bay.countOut_monitorRuns (Bay.monitorRuns_of_absence (hspin rfl) _ h)
    split
    exacts [⟨_, ho, Work.Goes.stay.speedLost⟩, ⟨_, ho, .stay⟩]
  | quiet =>
    dsimp only [Act.run, Work.quietRanOut, Work.stopped]
    have ho := Act.opens_edit .quiet (x := x) (y := { x with
      quietTimer := none, quietElapsed := true, reference := none, lastPeriod := none }) rfl rfl rfl rfl
      fun _ _ => Bay.monitorRuns_of_quiet
    split
    next hq =>
      have hspin : x.spin = false := by
        simp only [Bool.and_eq_true, Bool.not_eq_true'] at hq
        exact hq.1
      have hrest := ho.edit (fun x => { x with restMark := true }) rfl rfl rfl rfl
        fun _ => Bay.monitorRuns_of_rest hspin rfl
      split
      exacts [⟨_, hrest, Work.Goes.stay.toIdle⟩, ⟨_, hrest, .stay⟩]
    next => exact ⟨_, ho, .stay⟩
  | spinup =>
    dsimp only [Act.run, Work.inState, Work.spinupTimedOut]
    have ho := Act.opens_edit .spinup (x := x) (y := { x with tries := min 4 (x.tries + 1), spinupTimer := none })
      rfl rfl rfl rfl fun _ _ => Bay.monitorRuns_of_tries (min 4 (x.tries + 1)) (by omega)
    split
    · split
      · exact ⟨_, ho, (Work.Goes.stay.edit (fun x => { x with retry := true })
          ⟨⟨rfl, rfl, rfl, rfl, rfl⟩, ⟨rfl, rfl⟩, rfl, rfl, id⟩).toSpinningDown _⟩
      · exact ⟨_, ho, Work.Goes.stay.toFaulted _ _⟩
    · exact ⟨_, Act.opens_self _ _, .stay⟩
  | spindown => exact ⟨_, Act.opens_self _ _, Work.Goes.stay.inState _ _ Work.Goes.stay.spindownTimedOut⟩
  | watch => exact ⟨_, Act.opens_self _ _, Work.Goes.stay.inState _ _ (Work.Goes.stay.toFaulted _ _)⟩
  | dwell => exact ⟨_, Act.opens_self _ _, Work.Goes.stay.inState _ _ Work.Goes.stay.dwellRanOut⟩
  | load => exact ⟨_, Act.opens_self _ _, Work.Goes.stay.inState _ _ Work.Goes.stay.loadTimedOut⟩
  | settle => exact ⟨_, Act.opens_self _ _, Work.Goes.stay.inState _ _ Work.Goes.stay.toReady⟩
  | withdraw => exact ⟨_, Act.opens_self _ _, Work.Goes.stay.inState _ _ Work.Goes.stay.withdrawRanOut⟩
  | unload => exact ⟨_, Act.opens_self _ _, Work.Goes.stay.inState _ _ (Work.Goes.stay.toRetracting _)⟩
  | retractPulse => exact ⟨_, Act.opens_self _ _, Work.Goes.stay.inState _ _ Work.Goes.stay.pulseEnded⟩
  | retract => exact ⟨_, Act.opens_self _ _, Work.Goes.stay.inState _ _ Work.Goes.stay.retractRanOut⟩

/-! ### A grant (R33) -/

/-- The record as a grant finds it, the entry to SPINNING_UP apart. -/
def Bay.powered (sn : Snapshot) (c : Ctx) (x : Bay) : Bay :=
  { x with
    snapshot := some sn
    spin := true
    restMark := false
    reference := none
    lastPeriod := none
    inRun := 0
    outRun := 0
    absenceTimer := some (c.now + 2 * sn.profile.pNom) }

theorem Work.granted_eq (sn : Snapshot) (c : Ctx) (w : Work) :
    w.granted sn c =
      ((w.edit (Bay.powered sn c)).enter c .spinningUp).edit fun x =>
        { x with spinupTimer := some (dueAfter c.now sn.profile.spinupLimit) } :=
  rfl

@[simp] theorem Work.granted_state (sn : Snapshot) (c : Ctx) (w : Work) :
    (w.granted sn c).bay.state = .spinningUp := by
  simp [Work.granted]

@[simp] theorem Work.granted_since (sn : Snapshot) (c : Ctx) (w : Work) : (w.granted sn c).bay.since = c.now := by
  simp [Work.granted]

@[simp] theorem Work.granted_snapshot (sn : Snapshot) (c : Ctx) (w : Work) :
    (w.granted sn c).bay.snapshot = some sn := by
  simp [Work.granted]

@[simp] theorem Work.granted_demand (sn : Snapshot) (c : Ctx) (w : Work) (p : Port) :
    (w.granted sn c).bay.demand p = w.bay.demand p := by
  cases p <;> simp [Work.granted, Bay.demand]

@[simp] theorem Work.granted_entries (sn : Snapshot) (c : Ctx) (w : Work) :
    entries (w.granted sn c).facts = entries w.facts ++ [.spinningUp] := by
  rw [Work.granted_eq, Work.edit_facts, Work.enter_facts, entries_append, entries_append, entries_leaving,
    List.append_nil, Work.edit_facts]
  rfl

theorem Work.granted_ledFollowsState (sn : Snapshot) (c : Ctx) (w : Work) (h : w.bay.ledFollowsState = true) :
    (w.granted sn c).bay.ledFollowsState = true := by
  have hlit : ((Bay.powered sn c w.bay).entering c .spinningUp |>.relight c).ledFollowsState = true :=
    Bay.ledFollowsState_relight c _ ((Bay.ledFollowsState_iff _).mp h).2
  rw [← hlit]
  exact Bay.ledFollowsState_congr rfl

theorem Work.granted_monitorRuns (sn : Snapshot) (c : Ctx) (w : Work) (h : w.bay.monitorRuns = true) :
    (w.granted sn c).bay.monitorRuns = true := by
  simp only [Bay.monitorRuns, Bool.and_eq_true] at h
  obtain ⟨⟨⟨⟨-, htries⟩, -⟩, hquiet⟩, -⟩ := h
  simp only [Bay.monitorRuns, Bool.and_eq_true]
  exact ⟨⟨⟨⟨by simp [Work.granted], by simpa [Work.granted] using htries⟩, by simp [Work.granted]⟩,
    by simpa [Work.granted] using hquiet⟩, by simp [Work.granted]⟩

end Sys2Proof.Machine
end

section
/-!
What one event of the part can do, said once for all sixty: it leaves the bays as they are, touches one bay's lines,
lets bays act, takes samples of the sensor, acts on a port's slots, or is part reset.
-/

namespace Sys2Proof.Machine

/-! ### States that agree on the bays -/

/-- The bays, the motion state and the queue are the same. -/
structure State.Beside (s t : State) : Prop where
  bays : t.bays = s.bays
  motion : t.motion.state = s.motion.state
  queue : t.arbiter.queue = s.arbiter.queue

/-- So are the outstanding requests and the completion queues of both ports. -/
structure State.Alike (s t : State) : Prop extends s.Beside t where
  outstanding : ∀ p, (t.port p).outstanding = (s.port p).outstanding
  completions : ∀ p, (t.port p).completions = (s.port p).completions

theorem State.Beside.bay {s t : State} (h : s.Beside t) (b : BayNo) : t.bay b = s.bay b := by
  simp only [State.bay, h.bays]

theorem State.Beside.refl (s : State) : s.Beside s := ⟨rfl, rfl, rfl⟩

theorem State.Beside.trans {s t u : State} (h : s.Beside t) (g : t.Beside u) : s.Beside u :=
  ⟨g.bays.trans h.bays, g.motion.trans h.motion, g.queue.trans h.queue⟩

theorem State.Alike.refl (s : State) : s.Alike s := ⟨.refl s, fun _ => rfl, fun _ => rfl⟩

theorem State.Alike.trans {s t u : State} (h : s.Alike t) (g : t.Alike u) : s.Alike u :=
  ⟨h.toBeside.trans g.toBeside, fun p => (g.outstanding p).trans (h.outstanding p),
    fun p => (g.completions p).trans (h.completions p)⟩

/-- States with the same bays, motion record, queue and port units agree. -/
theorem State.Alike.of_eq {s t : State} (hb : t.bays = s.bays) (hm : t.motion.state = s.motion.state)
    (hq : t.arbiter.queue = s.arbiter.queue) (hA : t.portA = s.portA) (hB : t.portB = s.portB) : s.Alike t := by
  refine ⟨⟨hb, hm, hq⟩, fun p => ?_, fun p => ?_⟩ <;> cases p <;> simp only [State.port, hA, hB]

theorem State.alike_advance (s : State) (dt : Micros) : s.Alike (s.advance dt) := .of_eq rfl rfl rfl rfl rfl

theorem State.alike_advanceTo (s : State) (due : Micros) : s.Alike (s.advanceTo due) := .of_eq rfl rfl rfl rfl rfl

theorem State.alike_editReceiver (f : Receiver → Receiver) (s : State) : s.Alike (s.editReceiver f) :=
  .of_eq rfl rfl rfl rfl rfl

theorem State.alike_setPort (s : State) (p : Port) (u : PortUnit) (ho : u.outstanding = (s.port p).outstanding)
    (hc : u.completions = (s.port p).completions) : s.Alike (s.setPort p u) := by
  refine ⟨⟨by simp, by simp, by simp⟩, fun q => ?_, fun q => ?_⟩ <;> cases p <;> cases q <;> first | rfl | assumption

theorem State.alike_answer (s : State) (p : Port) (params : Nat) (code : AnswerCode) (data : List Byte)
    (clear : PendingClear) : s.Alike (s.answer p params code data clear) :=
  s.alike_setPort p _ rfl rfl

theorem State.alike_reply (s : State) (p : Port) (params : Nat) (code : AnswerCode) : s.Alike (s.reply p params code) :=
  s.alike_answer p params code [] .nothing

/-! ### Touching one bay's record -/

/-- One bay's record changes outside its sequencer: its raw lines and their filter timers, the LED at the end of a
half-period, or a release flag that an ended request clears (R11, R154, R165). -/
inductive Bay.Touched (c : Ctx) (x : Bay) : Bay → Prop where
  | raw (prs ejc flt prk idx : Bool) (prsTimer ejcTimer fltTimer prkTimer : Option Micros) :
    Touched c x { x with prs, ejc, flt, prk, idx, prsTimer, ejcTimer, fltTimer, prkTimer }
  | toggle : x.ledTimer.isSome = true → Touched c x (x.toggleLed c.now)
  | clearFlag (p : Port) : Touched c x ((x.setFlag p false).relight c)

theorem Bay.Touched.state {c : Ctx} {x y : Bay} (h : x.Touched c y) : y.state = x.state := by
  cases h <;> simp [Bay.toggleLed]

theorem Bay.Touched.demand {c : Ctx} {x y : Bay} (h : x.Touched c y) (p : Port) : y.demand p = x.demand p := by
  cases h with
  | raw => cases p <;> rfl
  | toggle => cases p <;> rfl
  | clearFlag => simp

theorem Bay.Touched.snapshot {c : Ctx} {x y : Bay} (h : x.Touched c y) : y.snapshot = x.snapshot := by
  cases h <;> simp [Bay.toggleLed]

/-! ### What lets a bay act -/

/-- The response that an event brings a bay (R6, R7, R17, R53 and the events of R27), but for what a motion change
brings. -/
def brings (i : Instr) (b : BayNo) (a : Act) : Prop :=
  match i with
  | .setDemand _ p mask level => mask.getLsbD b.val = true ∧ a = .writeDemand p (levelOf level)
  | .releaseBay _ p _ bay _ => bayOf bay = some b ∧ a = .askRelease p
  | .portRestart _ p => a = .restartFlag p
  | .clearFault _ _ bay => bayOf bay = some b ∧ a = .faultCleared
  | .grantEvaluation _ => ∃ sn, a = .granted sn
  | .idxPulse _ c => c = b ∧ a = .pulse
  | .prsSettleExpiry c => c = b ∧ a = .presence
  | .ejcSettleExpiry c => c = b ∧ a = .ejector
  | .fltFilterExpiry c => c = b ∧ a = .flt
  | .prkFilterExpiry c => c = b ∧ a = .prk
  | .absenceTimerExpiry c => c = b ∧ a = .absence
  | .quietTimerExpiry c => c = b ∧ a = .quiet
  | .spinupLimitExpiry c => c = b ∧ a = .spinup
  | .spindownLimitExpiry c => c = b ∧ a = .spindown
  | .unloadWatchExpiry c => c = b ∧ a = .watch
  | .dwellTimerExpiry c => c = b ∧ a = .dwell
  | .loadTimerExpiry c => c = b ∧ a = .load
  | .settleTimerExpiry c => c = b ∧ a = .settle
  | .withdrawWatchExpiry c => c = b ∧ a = .withdraw
  | .unloadTimerExpiry c => c = b ∧ a = .unload
  | .pulseTimerExpiry c => c = b ∧ a = .retractPulse
  | .retractTimerExpiry c => c = b ∧ a = .retract
  | _ => False

/-- What stands where a response is brought: a fault to clear, a queued bay to grant, the timer that ran. -/
def Act.Fits (a : Act) (s : State) (b : BayNo) : Prop :=
  match a with
  | .faultCleared => (s.bay b).state = .faulted ∧ (s.bay b).fltOn = false
  | .granted sn =>
    b ∈ s.arbiter.queue ∧ s.motion.state.grants = true ∧ sn = s.store.snapshotFor b
  | .absence | .quiet => (a.timer (s.bay b)).isSome = true
  | _ => True

/-! ### What a run of samples does -/

/-- The motion record after one share of a frame: a sample accepted, a sample missing, or BLIND (R137, R145, R146). -/
inductive MotionRecord.Follows (cs : CaseSettings) (t : Millis) (m : MotionRecord) : MotionRecord → Prop where
  | accept (p : Sample) : Follows cs t m (m.accept cs t p)
  | miss : Follows cs t m m.miss
  | blinded : Follows cs t m (m.blinded cs)

/-- The receiver changes, and motion records are installed one after the other. -/
inductive Event.Hears (e : Event) : Event → Prop where
  | stay : Hears e e
  | receiver {u : Event} (f : Receiver → Receiver) : Hears e u → Hears e (u.editReceiver f)
  | motion {u : Event} {m : MotionRecord} : Hears e u →
      u.st.motion.Follows u.st.caseSettings (millis u.st.now) m → Hears e (u.setMotion m)

/-- Character after character of the sensor, each an event of its own (R117, R118). -/
inductive State.Listens (s : State) : State → Prop where
  | stay : Listens s s
  | receiver {u : State} (f : Receiver → Receiver) : Listens s u → Listens s (u.editReceiver f)
  | hears {u : State} {e : Event} : Listens s u → u.event.Hears e → Listens s e.finish

namespace Event.Hears
variable {e u : Event}

theorem blindRequest (h : e.Hears u) : e.Hears u.blindRequest := (h.receiver _).motion .blinded

theorem missing (h : e.Hears u) : e.Hears u.missing := by
  unfold Event.missing
  dsimp only
  split
  · exact ((h.receiver _).motion .miss).blindRequest
  · exact (h.receiver _).motion .miss

theorem missingTimes (h : e.Hears u) (n : Nat) : e.Hears (u.missingTimes n) := by
  induction n generalizing u with
  | zero => exact h
  | succ n ih => exact ih h.missing

theorem discardFrame (h : e.Hears u) : e.Hears u.discardFrame := (h.receiver _).missing

theorem accepted (h : e.Hears u) (p : Sample) : e.Hears (u.accepted p) := (h.receiver _).motion (.accept p)

theorem frameResult (h : e.Hears u) (status : SensorStatus) (axes : List Nat) : e.Hears (u.frameResult status axes) := by
  cases status
  exacts [(h.receiver _).accepted _, (h.receiver _).accepted _, (h.receiver _).missing, (h.receiver _).missing]

theorem frameComplete (h : e.Hears u) (header : Nat) (axes : List Nat) : e.Hears (u.frameComplete header axes) :=
  ((((h.receiver _).missingTimes _).frameResult _ _).receiver _)

theorem header (h : e.Hears u) (value : Nat) : e.Hears (u.header value) := by
  have hv : e.Hears (if u.st.receiver.openFrame.isSome then u.discardFrame else u) := by
    split
    exacts [h.discardFrame, h]
  unfold Event.header
  dsimp only
  split
  exacts [hv.receiver _, hv.discardFrame]

theorem axis (h : e.Hears u) (value : Nat) : e.Hears (u.axis value) := by
  unfold Event.axis
  split
  · exact h
  · dsimp only
    split
    exacts [h.receiver _, h.frameComplete _ _]

theorem spoil (h : e.Hears u) : e.Hears u.spoil := by
  unfold Event.spoil
  split
  exacts [h.discardFrame, h]

end Event.Hears

theorem State.Listens.character {s u : State} (h : s.Listens u) (samples : BitVec 33) :
    s.Listens (u.character samples).finish := by
  have hv : s.Listens (if charStop samples then u.restartSilence else u) := by
    split
    exacts [h.receiver _, h]
  unfold State.character
  dsimp only
  split
  · exact hv.hears Event.Hears.stay.spoil
  · split
    exacts [hv.hears (Event.Hears.stay.header _), hv.hears (Event.Hears.stay.axis _)]

theorem State.listens_sampleLine (s : State) (line : List Bool) : s.Listens (s.sampleLine line) := by
  have key : ∀ (facts : List LineFact) (u : State), s.Listens u → s.Listens (facts.foldl State.takeFact u) := by
    intro facts
    induction facts with
    | nil => exact fun u hu => hu
    | cons f facts ih =>
      intro u hu
      cases f with
      | falseStart => exact ih _ hu
      | finished samples => exact ih _ (hu.character samples)
  exact key _ _ (State.Listens.stay.receiver _)

theorem State.listens_silence (s : State) : s.Listens s.silence.finish :=
  (State.Listens.stay.receiver _).hears Event.Hears.stay.spoil.blindRequest

/-! ### What a step can do -/

/-- What an event makes of a state. -/
inductive Taken (i : Instr) (s : State) : State → Prop where
  /-- It leaves the bays, the motion state, the queue and the outstanding requests. -/
  | beside {t : State} : s.Beside t → (∀ p, (t.port p).outstanding = (s.port p).outstanding) →
      (∀ p, actsOnSlots p i = false → (t.port p).completions = (s.port p).completions) → Taken i s t
  /-- It touches one bay's lines, their filters or its LED. -/
  | touch {u t : State} (b : BayNo) (x : Bay) : s.Alike u → (u.bay b).Touched u.ctx x →
      ((x.flagA, x.flagB, x.ejectorOpen, x.phase) =
        ((u.bay b).flagA, (u.bay b).flagB, (u.bay b).ejectorOpen, (u.bay b).phase)) →
      (u.setBay b x).Alike t → Taken i s t
  /-- It lets one bay act. -/
  | act {u t : State} (b : BayNo) (a : Act) : s.Alike u → brings i b a → a.Fits u b →
      (∀ p, a ≠ .askRelease p ∧ a ≠ .restartFlag p) → (∀ p l, a ≠ .writeDemand p l) → (u.bayEvent b a.run).Alike t →
      t.now = u.now → Taken i s t
  /-- SET DEMAND. -/
  | demand {u t : State} (dt : Micros) (p : Port) (mask level : Byte) : s.Alike u → i = .setDemand dt p mask level →
      u.store.engine ≠ .startup →
      ((u.event.onBays (maskBays mask) (Work.writeDemand p (levelOf level))).finish).Alike t → t.now = u.now →
      Taken i s t
  /-- It takes samples of the sensor, or finds it silent. -/
  | listens {u t : State} : s.Alike u → u.store = s.store → u.motion = s.motion → u.Listens t → Taken i s t
  /-- It takes a slot for a request other than RELEASE BAY, which may end at once. -/
  | accept {u t : State} (p : Port) (tag : Byte) (kind : RequestKind) (due : Option Micros) (e : Option Ending) :
      s.Alike u → actsOnSlots p i = true → (u.port p).tagInUse tag = false → (∀ b, kind ≠ .release b) →
      (∀ b level, kind = .wait b level → e = none → (u.accept p tag kind due).waitAtAcceptance b level = none) →
      ((u.accept p tag kind due).endAccepted p tag e).Alike t → Taken i s t
  /-- It ends requests of one port by CANCEL, by a timeout or with a store operation. -/
  | ends {u t : State} (p : Port) (ends : Request → Option Ending) : s.Alike u → actsOnSlots p i = true →
      (∀ r e b, r.kind = .release b → ends r = some e → e.termination ≠ .complete) → (u.endRequests p ends).Alike t →
      Taken i s t
  /-- RELEASE BAY. -/
  | release {u v t : State} (dt : Micros) (p : Port) (tag bay : Byte) (timeout : Half) (b : BayNo) : s.Alike u →
      i = .releaseBay dt p tag bay timeout → bayOf bay = some b → (u.port p).refusesRequest tag = none →
      v = (u.accept p tag (.release b) (timeoutDue u.now timeout)).bayEvent b (Work.askRelease p) →
      (v.endAccepted p tag (v.orExpireAtOnce b timeout (v.releaseAtAcceptance b))).Alike t → t.now = u.now →
      Taken i s t
  /-- PORT RESTART. -/
  | restart {u t : State} (dt : Micros) (p : Port) : s.Alike u → i = .portRestart dt p →
      ((((u.setPort p (u.port p).restart).event).onBays bayNos (Work.restartFlag p)).finish).Alike t →
      t.now = u.now → Taken i s t
  /-- Part reset. -/
  | reset : i = .partReset → Taken i s s.partReset

theorem Taken.alike {i : Instr} {s t : State} (h : s.Alike t) : Taken i s t :=
  .beside h.toBeside h.outstanding fun p _ => h.completions p

/-- A command taken while the part is starting leaves all but the frame (R170). -/
theorem Taken.command {i : Instr} {s t : State} {p : Port} {dt : Micros} (act : State → State)
    (ht : t = (s.advance dt).takeCommand p act)
    (h : (s.advance dt).store.engine ≠ .startup → t = act (s.advance dt) → Taken i s t) : Taken i s t := by
  by_cases hs : (s.advance dt).store.engine = .startup
  · rw [State.takeCommand_starting p act _ hs] at ht
    subst ht
    exact .alike ((s.alike_advance dt).trans (State.alike_reply _ _ _ _))
  · exact h hs (ht.trans (State.takeCommand_started p act _ hs))

theorem Taken.expiry {i : Instr} {s : State} (b : BayNo) (a : Act) (hi : brings i b a)
    (hfit : (a.timer (s.bay b)).isSome = true → a.Fits s b) (hrel : ∀ p, a ≠ .askRelease p ∧ a ≠ .restartFlag p)
    (hdem : ∀ p l, a ≠ .writeDemand p l) : Taken i s (s.bayExpiry b a.timer a.run) := by
  cases h : a.timer (s.bay b) with
  | none => rw [State.bayExpiry_stopped _ _ _ _ h]; exact .alike (.refl s)
  | some due =>
    rw [State.bayExpiry_running _ _ _ _ _ h]
    refine .act b a (s.alike_advanceTo due) hi ?_ hrel hdem (.refl _) ?_
    · cases a <;> exact hfit (by rw [h]; rfl)
    · exact congrArg (·.1) (State.bayEvent_frame b a.run (s.advanceTo due))

end Sys2Proof.Machine
end

section
/-!
Every event of the table is one of the cases of `Taken`.
-/

namespace Sys2Proof.Machine

@[simp] theorem Event.finish_now (e : Event) : e.finish.now = e.st.now := congrArg (·.1) e.finish_frame

@[simp] theorem Event.onBays_now (bs : List BayNo) (f : Ctx → Work → Work) (e : Event) :
    (e.onBays bs f).st.now = e.st.now :=
  congrArg (·.1) (e.onBays_frame bs f)

@[simp] theorem State.bayEvent_now (b : BayNo) (act : Ctx → Work → Work) (s : State) : (s.bayEvent b act).now = s.now :=
  congrArg (·.1) (s.bayEvent_frame b act)

@[simp] theorem State.event_st (s : State) : s.event.st = s := rfl

@[simp] theorem State.accept_now (p : Port) (tag : Byte) (kind : RequestKind) (due : Option Micros) (s : State) :
    (s.accept p tag kind due).now = s.now :=
  s.setPort_now p _

section
variable {i : Instr} {s t : State}

/-- A command that reads, or writes what no bay and no slot is reached by. -/
theorem Taken.answered {p : Port} {dt : Micros} {act : State → State} (hact : ∀ u : State, u.Alike (act u))
    (ht : t = (s.advance dt).takeCommand p act) : Taken i s t :=
  .command act ht fun _ h => .alike (h ▸ (s.alike_advance dt).trans (hact _))

/-- A raw change of one of a bay's lines (R48, R77, R154). -/
theorem Taken.line {dt : Micros} (b : BayNo) (x : Bay)
    (hx : ((s.advance dt).bay b).Touched (s.advance dt).ctx x)
    (hl : (x.flagA, x.flagB, x.ejectorOpen, x.phase) =
      ((s.bay b).flagA, (s.bay b).flagB, (s.bay b).ejectorOpen, (s.bay b).phase)) :
    Taken i s ((s.advance dt).setBay b x) :=
  .touch b x (s.alike_advance dt) hx hl (.refl _)

theorem PortUnit.tagInUse_of_refusesRequest {u : PortUnit} {tag : Byte} (h : u.refusesRequest tag = none) :
    u.tagInUse tag = false := by
  unfold PortUnit.refusesRequest at h
  split at h
  · cases h
  · split at h
    · cases h
    · simp_all

theorem taken_senseLines {dt : Micros} {p : Port} {bay : Byte} {idx mrx : Bool}
    (h : exec (.senseLines dt p bay idx mrx) s = .next t) : Taken (.senseLines dt p bay idx mrx) s t := by
  have ht := (Host.Outcome.next.inj h).symm
  refine .command _ ht fun _ h => ?_
  subst h
  split
  · exact .alike ((s.alike_advance dt).trans (State.alike_reply _ _ _ _))
  next b _ =>
    refine .touch b { (s.advance dt).bay b with idx := idx } (s.alike_advance dt) ?_ rfl
      ((State.alike_editReceiver _ _).trans (State.alike_answer _ _ _ _ _ _))
    exact .raw _ _ _ _ idx _ _ _ _

theorem taken_frameEnd {dt : Micros} {p : Port} {bytes : Nat} (h : exec (.frameEnd dt p bytes) s = .next t) :
    Taken (.frameEnd dt p bytes) s t := by
  obtain rfl := Host.Outcome.next.inj h
  have ho : (((s.advance dt).port p).endFrame bytes).outstanding = (s.port p).outstanding := by
    rw [State.port_advance]
    unfold PortUnit.endFrame
    split
    · rfl
    · rfl
    · dsimp only
      split
      · unfold PortUnit.clearPending
        split <;> rfl
      · rfl
  refine .beside ⟨by simp, by simp, by simp⟩ (fun q => ?_) fun q hq => ?_
  · cases p <;> cases q <;> first | rfl | exact ho
  · have hne : p ≠ q := by simpa [actsOnSlots] using hq
    cases p <;> cases q <;> first | rfl | exact absurd rfl hne

theorem taken_waitBay {dt : Micros} {p : Port} {tag bay level : Byte} {timeout : Half}
    (h : exec (.waitBay dt p tag bay level timeout) s = .next t) : Taken (.waitBay dt p tag bay level timeout) s t := by
  have ht := (Host.Outcome.next.inj h).symm
  refine .command _ ht fun _ h => ?_
  subst h
  split
  · exact .alike ((s.alike_advance dt).trans (State.alike_reply _ _ _ _))
  split
  · exact .alike ((s.alike_advance dt).trans (State.alike_reply _ _ _ _))
  next b _ hr =>
    refine .accept p tag _ _ _ (s.alike_advance dt) (by simp [actsOnSlots]) (PortUnit.tagInUse_of_refusesRequest hr)
      (by simp) (fun b' level' hk he => ?_) (State.alike_reply _ _ _ _)
    cases hk
    revert he
    unfold State.orExpireAtOnce
    split
    · exact fun he => by cases he
    · exact fun _ => by assumption

@[simp] theorem State.endTagged_now (p : Port) (tag : Byte) (e : Ending) (u : State) :
    (u.endTagged p tag e).now = u.now :=
  congrArg (·.1) (u.endRequests_frame p _)

@[simp] theorem State.endAccepted_now (p : Port) (tag : Byte) (e : Option Ending) (u : State) :
    (u.endAccepted p tag e).now = u.now := by
  cases e
  exacts [rfl, u.endTagged_now _ _ _]

theorem taken_releaseBay {dt : Micros} {p : Port} {tag bay : Byte} {timeout : Half}
    (h : exec (.releaseBay dt p tag bay timeout) s = .next t) : Taken (.releaseBay dt p tag bay timeout) s t := by
  have ht := (Host.Outcome.next.inj h).symm
  refine .command _ ht fun _ h => ?_
  subst h
  split
  · exact .alike ((s.alike_advance dt).trans (State.alike_reply _ _ _ _))
  next b hb =>
    split
    · exact .alike ((s.alike_advance dt).trans (State.alike_reply _ _ _ _))
    next hr =>
      refine .release dt p tag bay timeout b (s.alike_advance dt) rfl hb hr rfl (State.alike_reply _ _ _ _) ?_
      simp

theorem taken_storeRequest {p : Port} {tag : Byte} {kind : RequestKind} {u : State} (hu : s.Alike u)
    (hi : actsOnSlots p i = true) (hr : (u.port p).refusesRequest tag = none) (hk : kind = .write ∨ kind = .reload)
    (ht : (u.accept p tag kind none).Alike t) : Taken i s t :=
  .accept p tag kind none none hu hi (PortUnit.tagInUse_of_refusesRequest hr)
    (fun b => by obtain rfl | rfl := hk <;> simp) (fun b level h => by obtain rfl | rfl := hk <;> cases h) ht

theorem taken_writeRecord {dt : Micros} {p : Port} {tag record lock : Byte} {contents : List Byte}
    (h : exec (.writeRecord dt p tag record lock contents) s = .next t) :
    Taken (.writeRecord dt p tag record lock contents) s t := by
  have ht := (Host.Outcome.next.inj h).symm
  have hreply := fun n code => (s.alike_advance dt).trans (State.alike_reply (s.advance dt) p n code)
  refine .command _ ht fun _ h => ?_
  subst h
  split
  · exact .alike (hreply _ _)
  split
  · exact .alike (s.alike_advance dt)
  dsimp only
  split
  · exact .alike (hreply _ _)
  next hr =>
    split
    · exact .alike (hreply _ _)
    split
    · exact .alike (hreply _ _)
    refine taken_storeRequest (s.alike_advance dt) (by simp [actsOnSlots]) hr (.inl rfl)
      (.trans ?_ (State.alike_reply _ _ _ _))
    exact .of_eq rfl rfl rfl rfl rfl

theorem taken_reload {dt : Micros} {p : Port} {tag : Byte}
    (h : exec (.reload dt p tag) s = .next t) : Taken (.reload dt p tag) s t := by
  have ht := (Host.Outcome.next.inj h).symm
  have hreply := fun n code => (s.alike_advance dt).trans (State.alike_reply (s.advance dt) p n code)
  refine .command _ ht fun _ h => ?_
  subst h
  split
  · exact .alike (hreply _ _)
  next hr =>
    split
    · exact .alike (hreply _ _)
    refine taken_storeRequest (s.alike_advance dt) (by simp [actsOnSlots]) hr (.inr rfl)
      (.trans ?_ (State.alike_reply _ _ _ _))
    exact .of_eq rfl rfl rfl rfl rfl

theorem taken_cancel {dt : Micros} {p : Port} {tag : Byte}
    (h : exec (.cancel dt p tag) s = .next t) : Taken (.cancel dt p tag) s t := by
  have ht := (Host.Outcome.next.inj h).symm
  refine .command _ ht fun _ h => ?_
  subst h
  split
  · refine .ends p _ (s.alike_advance dt) (by simp [actsOnSlots]) (fun r e b _ he => ?_) (State.alike_reply _ _ _ _)
    split at he <;> cases he
    decide
  · exact .alike ((s.alike_advance dt).trans (State.alike_reply _ _ _ _))

theorem taken_requestExpiry {p : Port} {r : Request} {b : BayNo} (hi : actsOnSlots p i = true) :
    Taken i s (s.requestExpiry p r b) := by
  unfold State.requestExpiry
  split
  · exact .alike (.refl s)
  · refine .ends p _ (s.alike_advanceTo _) hi (fun r e b _ he => ?_) (.refl _)
    split at he <;> cases he
    simp

theorem taken_waitBayTimeout {p : Port} {tag : Byte} (h : exec (.waitBayTimeout p tag) s = .next t) :
    Taken (.waitBayTimeout p tag) s t := by
  dsimp only [exec, execWaitBayTimeout] at h
  split at h
  · obtain rfl := Host.Outcome.next.inj h
    exact .alike (.refl s)
  · split at h <;> obtain rfl := Host.Outcome.next.inj h
    exacts [taken_requestExpiry (by simp [actsOnSlots]), .alike (.refl s)]

theorem taken_releaseBayTimeout {p : Port} {tag : Byte} (h : exec (.releaseBayTimeout p tag) s = .next t) :
    Taken (.releaseBayTimeout p tag) s t := by
  dsimp only [exec, execReleaseBayTimeout] at h
  split at h
  · obtain rfl := Host.Outcome.next.inj h
    exact .alike (.refl s)
  · split at h <;> obtain rfl := Host.Outcome.next.inj h
    exacts [taken_requestExpiry (by simp [actsOnSlots]), .alike (.refl s)]

theorem storeEnding_release (kind : RequestKind) (hk : ∀ b, kind ≠ .release b) (e : Ending) (r : Request)
    (e' : Ending) (b : BayNo) (hr : r.kind = .release b) (h : storeEnding kind e r = some e') :
    e'.termination ≠ .complete := by
  unfold storeEnding at h
  split at h
  next hrk => exact absurd (hr ▸ hrk.symm) (hk b)
  next => cases h

theorem Taken.storeEnds {u : State} (owner : Port) (kind : RequestKind) (e : Ending) (hu : s.Alike u)
    (hi : actsOnSlots owner i = true) (hk : ∀ b, kind ≠ .release b) :
    Taken i s (u.endRequests owner (storeEnding kind e)) :=
  .ends owner _ hu hi (fun r e' b hr he => storeEnding_release kind hk e r e' b hr he) (.refl _)

theorem taken_writeEnd {agrees : Bool} (h : exec (.writeEnd agrees) s = .next t) : Taken (.writeEnd agrees) s t := by
  dsimp only [exec, execWriteEnd] at h
  split at h <;> obtain rfl := Host.Outcome.next.inj h
  · unfold State.endWrite
    split <;> exact .storeEnds _ .write _ (.of_eq rfl rfl rfl rfl rfl) rfl (by simp)
  · exact .alike (.refl s)

theorem taken_reloadEnd (h : exec .reloadEnd s = .next t) : Taken .reloadEnd s t := by
  dsimp only [exec, execReloadEnd] at h
  split at h <;> obtain rfl := Host.Outcome.next.inj h
  · exact .storeEnds _ .reload _ (.of_eq rfl rfl rfl rfl rfl) rfl (by simp)
  · exact .alike (.refl s)

theorem taken_clearFault {dt : Micros} {p : Port} {bay : Byte} (h : exec (.clearFault dt p bay) s = .next t) :
    Taken (.clearFault dt p bay) s t := by
  have ht := (Host.Outcome.next.inj h).symm
  have hreply := fun n code => (s.alike_advance dt).trans (State.alike_reply (s.advance dt) p n code)
  refine .command _ ht fun _ h => ?_
  subst h
  split
  · exact .alike (hreply _ _)
  next b hb =>
    split
    · exact .alike (hreply _ _)
    next hstate =>
      split
      · exact .alike (hreply _ _)
      next hflt =>
        refine .act b .faultCleared (s.alike_advance dt) ⟨hb, rfl⟩
          ⟨not_not.mp hstate, by simpa using hflt⟩ (by simp) (by simp) (State.alike_reply _ _ _ _) ?_
        simp

theorem State.grantable_spec {u : State} {b : BayNo} (h : u.grantable = some b) :
    b ∈ u.arbiter.queue ∧ u.motion.state.grants = true ∧ u.arbiter.gapPassed = true ∧ u.fitsAlone b = true ∧
      u.fitsBudget b = true := by
  unfold State.grantable at h
  split at h
  next hg =>
    rw [Bool.and_eq_true] at hg
    obtain ⟨hc, hf⟩ := Option.filter_eq_some_iff.mp h
    exact ⟨List.mem_of_find?_eq_some hc, hg.1, hg.2, List.find?_some hc, hf⟩
  next => cases h

/-- An evaluation grants nothing, or lets the bay it grants take its grant as one event (R107, R109). -/
theorem State.evaluate_finish (s : State) :
    let u := { s with arbiter := { s.arbiter with evalOwed := false } }
    (u.grantable = none ∧ s.evaluate.finish = u) ∨
      ∃ b, u.grantable = some b ∧
        s.evaluate.finish = u.noteGrant.bayEvent b (Work.granted (s.store.snapshotFor b)) := by
  intro u
  cases h : u.grantable with
  | none =>
    refine .inl ⟨rfl, ?_⟩
    simp only [State.evaluate, u] at h ⊢
    rw [h]
    exact Event.finish_of_no_facts _
  | some b =>
    refine .inr ⟨b, rfl, ?_⟩
    simp only [State.evaluate, u] at h ⊢
    rw [h]
    rfl

theorem taken_evaluate (u : State) (hu : s.Alike u) {dt : Micros} :
    Taken (.grantEvaluation dt) s u.evaluate.finish := by
  obtain ⟨-, he⟩ | ⟨b, hb, he⟩ := u.evaluate_finish <;> rw [he]
  · exact .alike (hu.trans (.of_eq rfl rfl rfl rfl rfl))
  · obtain ⟨hq, hm, -⟩ := State.grantable_spec hb
    set v := ({ u with arbiter := { u.arbiter with evalOwed := false } } : State).noteGrant
    refine .act (u := v) b (.granted (u.store.snapshotFor b)) (hu.trans ?_) ⟨_, rfl⟩ ⟨hq, hm, rfl⟩ (by simp) (by simp)
      (.refl _) (State.bayEvent_now _ _ _)
    exact .of_eq rfl rfl rfl rfl rfl

theorem taken_grantEvaluation {dt : Micros} (h : exec (.grantEvaluation dt) s = .next t) :
    Taken (.grantEvaluation dt) s t := by
  obtain rfl := Host.Outcome.next.inj h
  have hu := s.alike_advance dt
  generalize s.advance dt = u at hu
  split
  exacts [taken_evaluate u hu, .alike hu]

theorem taken_listening {dt : Micros} {line : List Bool}
    (ht : t = if (s.advance dt).starting then s.advance dt else (s.advance dt).sampleLine line) : Taken i s t := by
  have hu := s.alike_advance dt
  have hstore : (s.advance dt).store = s.store := rfl
  have hmotion : (s.advance dt).motion = s.motion := rfl
  subst ht
  generalize s.advance dt = u at *
  split
  exacts [.alike hu, .listens hu hstore hmotion (u.listens_sampleLine line)]

theorem taken_silenceTimerExpiry (h : exec .silenceTimerExpiry s = .next t) : Taken .silenceTimerExpiry s t := by
  dsimp only [exec, execSilenceTimerExpiry] at h
  split at h <;> obtain rfl := Host.Outcome.next.inj h
  · exact .alike (.refl s)
  · exact .listens (s.alike_advanceTo _) rfl rfl (State.listens_silence _)

theorem taken_ledPatternToggle {b : BayNo} (h : exec (.ledPatternToggle b) s = .next t) :
    Taken (.ledPatternToggle b) s t := by
  dsimp only [exec, execLedPatternToggle] at h
  split at h <;> obtain rfl := Host.Outcome.next.inj h
  · exact .alike (.refl s)
  next hl => exact .touch b _ (s.alike_advanceTo _) (.toggle (by rw [State.bay_advanceTo, hl]; rfl)) rfl (.refl _)

theorem taken_startupLoadComplete {dt : Micros} (h : exec (.startupLoadComplete dt) s = .next t) :
    Taken (.startupLoadComplete dt) s t := by
  have ht := (Host.Outcome.next.inj h).symm
  split at ht <;> subst ht
  · exact .alike (.of_eq rfl rfl rfl rfl rfl)
  · exact .alike (s.alike_advance dt)

theorem taken_gapTimerExpiry (h : exec .gapTimerExpiry s = .next t) : Taken .gapTimerExpiry s t := by
  dsimp only [exec, execGapTimerExpiry] at h
  split at h <;> obtain rfl := Host.Outcome.next.inj h
  exacts [.alike (.refl s), .alike (.of_eq rfl rfl rfl rfl rfl)]

theorem taken_srcSettleExpiry (h : exec .srcSettleExpiry s = .next t) : Taken .srcSettleExpiry s t := by
  dsimp only [exec, execSrcSettleExpiry] at h
  split at h
  · obtain rfl := Host.Outcome.next.inj h
    exact .alike (.refl s)
  · split at h <;> obtain rfl := Host.Outcome.next.inj h
    exacts [.alike (.of_eq rfl rfl rfl rfl rfl), .alike (.of_eq rfl rfl rfl rfl rfl)]

theorem taken_keySettleExpiry (h : exec .keySettleExpiry s = .next t) : Taken .keySettleExpiry s t := by
  dsimp only [exec, execKeySettleExpiry] at h
  split at h <;> obtain rfl := Host.Outcome.next.inj h
  exacts [.alike (.refl s), .alike (.of_eq rfl rfl rfl rfl rfl)]

theorem taken_setDemand {dt : Micros} {p : Port} {mask level : Byte}
    (h : exec (.setDemand dt p mask level) s = .next t) : Taken (.setDemand dt p mask level) s t := by
  have ht := (Host.Outcome.next.inj h).symm
  refine .command _ ht fun hs h => ?_
  subst h
  refine .demand dt p mask level (s.alike_advance dt) rfl hs (State.alike_reply _ _ _ _) ?_
  simp

theorem taken_portRestart {dt : Micros} {p : Port} (h : exec (.portRestart dt p) s = .next t) :
    Taken (.portRestart dt p) s t := by
  have ht := (Host.Outcome.next.inj h).symm
  refine .command _ ht fun hs h => ?_
  subst h
  refine .restart dt p (s.alike_advance dt) rfl (State.alike_reply _ _ _ _) ?_
  simp

end

/-- What an event of the table can do. -/
theorem exec_taken {i : Instr} {s t : State} (h : exec i s = .next t) : Taken i s t := by
  have ht := fun {u : State} (hu : exec i s = .next u) => Host.Outcome.next.inj (h.symm.trans hu)
  cases i with
  | setDemand => exact taken_setDemand h
  | readBay =>
    refine .answered (fun u => ?_) (ht rfl)
    split
    exacts [u.alike_reply _ _ _, u.alike_answer _ _ _ _ _]
  | readCase =>
    refine .answered (fun u => ?_) (ht rfl)
    exact u.alike_answer _ _ _ _ _
  | senseLines => exact taken_senseLines h
  | takeCompletion =>
    refine .answered (fun u => ?_) (ht rfl)
    split <;> exact u.alike_answer _ _ _ _ _
  | cancel => exact taken_cancel h
  | clearFault => exact taken_clearFault h
  | ringPeer =>
    refine .answered (fun u => ?_) (ht rfl)
    refine .trans ?_ (State.alike_reply _ _ _ _)
    exact u.alike_setPort _ _ rfl rfl
  | takeNotices =>
    refine .answered (fun u => ?_) (ht rfl)
    exact u.alike_answer _ _ _ _ _
  | setNoticeMask =>
    refine .answered (fun u => ?_) (ht rfl)
    refine .trans ?_ (State.alike_reply _ _ _ _)
    exact u.alike_setPort _ _ rfl rfl
  | readShared =>
    refine .answered (fun u => ?_) (ht rfl)
    split
    exacts [u.alike_reply _ _ _, u.alike_answer _ _ _ _ _]
  | writeShared =>
    refine .answered (fun u => ?_) (ht rfl)
    split
    · exact u.alike_reply _ _ _
    · refine .trans ?_ (State.alike_reply _ _ _ _)
      exact .of_eq rfl rfl rfl rfl rfl
  | readProfile =>
    refine .answered (fun u => ?_) (ht rfl)
    split
    exacts [u.alike_reply _ _ _, u.alike_answer _ _ _ _ _]
  | readStored =>
    refine .answered (fun u => ?_) (ht rfl)
    split
    · exact u.alike_reply _ _ _
    · split
      exacts [u.alike_reply _ _ _, u.alike_answer _ _ _ _ _]
  | portRestart => exact taken_portRestart h
  | waitBay => exact taken_waitBay h
  | releaseBay => exact taken_releaseBay h
  | writeRecord => exact taken_writeRecord h
  | reload => exact taken_reload h
  | unknownCommand =>
    refine .answered (fun u => ?_) (ht rfl)
    exact u.alike_reply _ _ _
  | startingFrame =>
    refine .answered (fun u => ?_) (ht rfl)
    exact .refl u
  | selectFall =>
    rw [ht rfl]
    exact .alike ((s.alike_advance _).trans (State.alike_setPort _ _ _ rfl rfl))
  | frameEnd => exact taken_frameEnd h
  | partReset => rw [ht rfl]; exact .reset rfl
  | startupLoadComplete => exact taken_startupLoadComplete h
  | prsLineChange => rw [ht rfl]; exact .line _ _ (.raw _ _ _ _ _ _ _ _ _) rfl
  | ejcLineChange => rw [ht rfl]; exact .line _ _ (.raw _ _ _ _ _ _ _ _ _) rfl
  | fltLineChange => rw [ht rfl]; exact .line _ _ (.raw _ _ _ _ _ _ _ _ _) rfl
  | prkLineChange => rw [ht rfl]; exact .line _ _ (.raw _ _ _ _ _ _ _ _ _) rfl
  | srcLineChange => rw [ht rfl]; exact .alike (.of_eq rfl rfl rfl rfl rfl)
  | srcSettleExpiry => exact taken_srcSettleExpiry h
  | keyLineChange => rw [ht rfl]; exact .alike (.of_eq rfl rfl rfl rfl rfl)
  | keySettleExpiry => exact taken_keySettleExpiry h
  | idxPulse dt b =>
    rw [ht rfl]
    exact .act b .pulse (s.alike_advance dt) ⟨rfl, rfl⟩ trivial (by simp) (by simp) (.refl _)
      (State.bayEvent_now _ _ _)
  | prsSettleExpiry b => rw [ht rfl]; exact .expiry b .presence ⟨rfl, rfl⟩ (fun _ => trivial) (by simp) (by simp)
  | ejcSettleExpiry b => rw [ht rfl]; exact .expiry b .ejector ⟨rfl, rfl⟩ (fun _ => trivial) (by simp) (by simp)
  | fltFilterExpiry b => rw [ht rfl]; exact .expiry b .flt ⟨rfl, rfl⟩ (fun _ => trivial) (by simp) (by simp)
  | prkFilterExpiry b => rw [ht rfl]; exact .expiry b .prk ⟨rfl, rfl⟩ (fun _ => trivial) (by simp) (by simp)
  | absenceTimerExpiry b => rw [ht rfl]; exact .expiry b .absence ⟨rfl, rfl⟩ id (by simp) (by simp)
  | quietTimerExpiry b => rw [ht rfl]; exact .expiry b .quiet ⟨rfl, rfl⟩ id (by simp) (by simp)
  | spinupLimitExpiry b => rw [ht rfl]; exact .expiry b .spinup ⟨rfl, rfl⟩ (fun _ => trivial) (by simp) (by simp)
  | spindownLimitExpiry b => rw [ht rfl]; exact .expiry b .spindown ⟨rfl, rfl⟩ (fun _ => trivial) (by simp) (by simp)
  | unloadWatchExpiry b => rw [ht rfl]; exact .expiry b .watch ⟨rfl, rfl⟩ (fun _ => trivial) (by simp) (by simp)
  | dwellTimerExpiry b => rw [ht rfl]; exact .expiry b .dwell ⟨rfl, rfl⟩ (fun _ => trivial) (by simp) (by simp)
  | loadTimerExpiry b => rw [ht rfl]; exact .expiry b .load ⟨rfl, rfl⟩ (fun _ => trivial) (by simp) (by simp)
  | settleTimerExpiry b => rw [ht rfl]; exact .expiry b .settle ⟨rfl, rfl⟩ (fun _ => trivial) (by simp) (by simp)
  | withdrawWatchExpiry b => rw [ht rfl]; exact .expiry b .withdraw ⟨rfl, rfl⟩ (fun _ => trivial) (by simp) (by simp)
  | unloadTimerExpiry b => rw [ht rfl]; exact .expiry b .unload ⟨rfl, rfl⟩ (fun _ => trivial) (by simp) (by simp)
  | pulseTimerExpiry b => rw [ht rfl]; exact .expiry b .retractPulse ⟨rfl, rfl⟩ (fun _ => trivial) (by simp) (by simp)
  | retractTimerExpiry b => rw [ht rfl]; exact .expiry b .retract ⟨rfl, rfl⟩ (fun _ => trivial) (by simp) (by simp)
  | gapTimerExpiry => exact taken_gapTimerExpiry h
  | grantEvaluation => exact taken_grantEvaluation h
  | ledPatternToggle => exact taken_ledPatternToggle h
  | characterFinished => exact taken_listening (ht rfl)
  | silenceTimerExpiry => exact taken_silenceTimerExpiry h
  | waitBayTimeout => exact taken_waitBayTimeout h
  | releaseBayTimeout => exact taken_releaseBayTimeout h
  | writeEnd => exact taken_writeEnd h
  | reloadEnd => exact taken_reloadEnd h
  | mrxFalseStart => exact taken_listening (ht rfl)

end Sys2Proof.Machine
end

section
/-!
An event of the part as a chain of moves on the bays, and the induction over it: what every move keeps, every step keeps.
-/

namespace Sys2Proof.Machine

/-- The bays of `t` come of those of `s` by moves of single bays and by changes of the motion state. -/
inductive State.Moves (i : Instr) (s : State) : State → Prop where
  | start : Moves i s s
  | beside {u v : State} : Moves i s u → u.Beside v → Moves i s v
  | touch {u : State} (b : BayNo) (x : Bay) : Moves i s u → (u.bay b).Touched u.ctx x → Moves i s (u.setBay b x)
  | act {u : State} (b : BayNo) (a : Act) : Moves i s u → brings i b a → a.Fits u b →
      Moves i s (u.event.onBay b a.run).st
  | motion {u : State} (m : MotionRecord) : Moves i s u → Moves i s (u.event.setMotion m).st

theorem State.beside_setPort (s : State) (p : Port) (u : PortUnit) : s.Beside (s.setPort p u) :=
  ⟨s.setPort_bays p u, by rw [s.setPort_motion], by rw [s.setPort_arbiter]⟩

/-- The flag that an ended request clears, where `ends` ends it (R11). -/
def State.clearFlagFor (p : Port) (ends : Request → Option Ending) (t : State) (r : Request) : State :=
  match ends r with
  | some e => t.clearFlagAfter p r e
  | none => t

theorem State.clearFlagFor_cases (p : Port) (ends : Request → Option Ending) (t : State) (r : Request) :
    t.clearFlagFor p ends r = t ∨ ∃ e, ends r = some e ∧ t.clearFlagFor p ends r = t.clearFlagAfter p r e := by
  unfold State.clearFlagFor
  split
  next e he => exact .inr ⟨e, he, rfl⟩
  next => exact .inl rfl

/-- A port's slots once the requests that `ends` ends have ended (R178). -/
def State.closeRequests (p : Port) (ends : Request → Option Ending) (s : State) : State :=
  s.setPort p
    { s.port p with
      outstanding := (s.port p).outstanding.filter fun r => (ends r).isNone
      completions := (s.port p).completions ++
        (s.port p).outstanding.filterMap fun r => (ends r).map (s.record r) }

theorem State.endRequests_eq (p : Port) (ends : Request → Option Ending) (s : State) :
    s.endRequests p ends =
      ((s.port p).outstanding.filter fun r => (ends r).isSome).foldl (State.clearFlagFor p ends)
        (s.closeRequests p ends) :=
  rfl

namespace State.Moves
variable {i : Instr} {s u v : State}

/-- The end of requests clears flags at most (R11). -/
theorem endRequests (h : s.Moves i u) (p : Port) (ends : Request → Option Ending) : s.Moves i (u.endRequests p ends) := by
  have key : ∀ (rs : List Request) (v : State), s.Moves i v → s.Moves i (rs.foldl (State.clearFlagFor p ends) v) := by
    intro rs
    induction rs with
    | nil => exact fun _ hv => hv
    | cons r rs ih =>
      intro v hv
      refine ih _ ?_
      obtain he | ⟨e, -, he⟩ := v.clearFlagFor_cases p ends r
      · rw [he]; exact hv
      · rw [he]
        obtain he | ⟨b, -, -, -, he⟩ := v.clearFlagAfter_spec p r e <;> rw [he]
        exacts [hv, hv.touch b _ (.clearFlag p)]
  rw [State.endRequests_eq]
  exact key _ _ (h.beside (u.beside_setPort p _))

theorem finish {e : Event} (h : s.Moves i e.st) : s.Moves i e.finish :=
  (h.endRequests .a _).endRequests .b _

end State.Moves

/-- What bays make of an event's state does not depend on the facts so far. -/
theorem Event.onBays_st (bs : List BayNo) (f : Ctx → Work → Work) {e e' : Event} (h : e.st = e'.st) :
    (e.onBays bs f).st = (e'.onBays bs f).st := by
  induction bs generalizing e e' with
  | nil => exact h
  | cons b bs ih =>
    refine ih (e := e.onBay b f) (e' := e'.onBay b f) ?_
    simp only [Event.onBay, h]

/-- A motion record of the same state is installed, and nothing else (R149). -/
theorem Event.setMotion_same {m : MotionRecord} {e : Event} (h : m.state = e.st.motion.state) :
    e.setMotion m = { e with st := { e.st with motion := m } } :=
  if_pos h

/-- The arbiter and the ports as a change of motion state finds them (R107, R149, R183). -/
def State.motionHanded (m : MotionRecord) (s : State) : State :=
  { ({ s with motion := m } : State).oweEvaluation with
    portA := s.portA.setMotionChanged
    portB := s.portB.setMotionChanged }

/-- A change of motion state reaches every bay (R149). -/
theorem Event.setMotion_changed {m : MotionRecord} {e : Event} (h : m.state ≠ e.st.motion.state) :
    e.setMotion m = Event.onBays bayNos Work.motionChanged ⟨e.st.motionHanded m, e.facts⟩ :=
  if_neg h

theorem Event.setMotion_st (m : MotionRecord) (e : Event) : (e.setMotion m).st = (e.st.event.setMotion m).st := by
  by_cases h : m.state = e.st.motion.state
  · rw [Event.setMotion_same h, Event.setMotion_same (e := e.st.event) h]; rfl
  · rw [Event.setMotion_changed h, Event.setMotion_changed (e := e.st.event) h]
    exact Event.onBays_st _ _ rfl

namespace State.Moves
variable {i : Instr} {s u v : State}

theorem onBays (h : s.Moves i u) (bs : List BayNo) (a : Act) (hi : ∀ b ∈ bs, brings i b a)
    (hf : ∀ v b, a.Fits v b) : s.Moves i (u.event.onBays bs a.run).st := by
  induction bs generalizing u with
  | nil => exact h
  | cons b bs ih =>
    have hb := h.act b a (hi b (List.mem_cons_self ..)) (hf _ _)
    refine (ih hb fun c hc => hi c (List.mem_cons_of_mem _ hc)).beside ?_
    have he : (u.event.onBays (b :: bs) a.run).st = ((u.event.onBay b a.run).st.event.onBays bs a.run).st :=
      Event.onBays_st bs a.run rfl
    rw [he]
    exact .refl _

theorem hears (h : s.Moves i u) {e : Event} (he : u.event.Hears e) : s.Moves i e.st := by
  induction he with
  | stay => exact h
  | receiver f _ ih => exact ih.beside (State.alike_editReceiver _ _).toBeside
  | @motion e m _ _ ih => rw [Event.setMotion_st]; exact ih.motion m

theorem listens (h : s.Moves i u) (hl : u.Listens v) : s.Moves i v := by
  induction hl with
  | stay => exact h
  | receiver f _ ih => exact ih.beside (State.alike_editReceiver _ _).toBeside
  | hears _ he ih => exact (ih.hears he).finish

theorem endAccepted (h : s.Moves i u) (p : Port) (tag : Byte) (e : Option Ending) :
    s.Moves i (u.endAccepted p tag e) := by
  cases e
  exacts [h, h.endRequests p _]

end State.Moves

theorem State.beside_accept (s : State) (p : Port) (tag : Byte) (kind : RequestKind) (due : Option Micros) :
    s.Beside (s.accept p tag kind due) :=
  s.beside_setPort p _

/-- Every event but part reset moves the bays. -/
theorem Taken.moves {i : Instr} {s t : State} (h : Taken i s t) (hi : i ≠ .partReset) : s.Moves i t := by
  cases h with
  | beside hb => exact State.Moves.start.beside hb
  | touch b x hu hx _ ht => exact ((State.Moves.start.beside hu.toBeside).touch b x hx).beside ht.toBeside
  | act b a hu hb hf _ _ ht =>
    exact ((State.Moves.start.beside hu.toBeside).act b a hb hf).finish.beside ht.toBeside
  | demand dt p mask level hu he _ ht =>
    subst he
    have h0 : s.Moves (.setDemand dt p mask level) _ := State.Moves.start.beside hu.toBeside
    exact (h0.onBays (maskBays mask) (.writeDemand p (levelOf level))
      (fun b hb => ⟨(mem_maskBays mask b).mp hb, rfl⟩) fun _ _ => trivial).finish.beside ht.toBeside
  | listens hu _ _ hl => exact (State.Moves.start.beside hu.toBeside).listens hl
  | accept p tag kind due e hu _ _ _ _ ht =>
    exact (((State.Moves.start.beside hu.toBeside).beside (State.beside_accept _ _ _ _ _)).endAccepted p tag
      e).beside ht.toBeside
  | ends p ends hu _ _ ht => exact ((State.Moves.start.beside hu.toBeside).endRequests p ends).beside ht.toBeside
  | release dt p tag bay timeout b hu he hb _ hv ht =>
    subst he hv
    have h0 : s.Moves (.releaseBay dt p tag bay timeout) _ := State.Moves.start.beside hu.toBeside
    exact (((h0.beside (State.beside_accept _ _ _ _ _)).act b (.askRelease p)
      ⟨hb, rfl⟩ trivial).finish.endAccepted p tag _).beside ht.toBeside
  | restart dt p hu he ht =>
    subst he
    refine (State.Moves.finish ?_).beside ht.toBeside
    refine State.Moves.onBays ?_ bayNos (.restartFlag p) (fun _ _ => rfl) fun _ _ => trivial
    exact (State.Moves.start.beside hu.toBeside).beside
      (State.beside_setPort _ _ _)
  | reset he => exact absurd he hi

theorem exec_moves {i : Instr} {s t : State} (h : exec i s = .next t) (hi : i ≠ .partReset) : s.Moves i t :=
  (exec_taken h).moves hi

/-! ### What a move makes of the bays and of the queue -/

theorem State.onBay_bay (u : State) (b c : BayNo) (f : Ctx → Work → Work) :
    (u.event.onBay b f).st.bay c = if c = b then (f u.ctx ⟨u.bay b, []⟩).bay else u.bay c :=
  Event.onBay_bay b c f u.event

theorem State.onBay_motion (u : State) (b : BayNo) (f : Ctx → Work → Work) :
    (u.event.onBay b f).st.motion = u.motion :=
  congrArg (·.2.2.1) (Event.onBay_frame b f u.event)

theorem State.setMotion_bay (u : State) (m : MotionRecord) (b : BayNo) :
    (u.event.setMotion m).st.bay b =
      if m.state = u.motion.state then u.bay b else (Work.motionChanged ⟨u.now, m.state⟩ ⟨u.bay b, []⟩).bay := by
  split
  next h => exact congrArg (fun e => e.st.bay b) (Event.setMotion_same (e := u.event) h)
  next h =>
    rw [Event.setMotion_changed (e := u.event) h, Event.onBays_bay _ _ _ (by decide), if_pos (mem_bayNos b)]
    rfl

theorem State.setMotion_motion (u : State) (m : MotionRecord) : (u.event.setMotion m).st.motion = m := by
  by_cases h : m.state = u.motion.state
  · exact congrArg (fun e => e.st.motion) (Event.setMotion_same (e := u.event) h)
  · rw [Event.setMotion_changed (e := u.event) h]
    exact congrArg (·.2.2.1) (Event.onBays_frame bayNos Work.motionChanged _)

theorem State.bay_setBay_eq (s : State) (b c : BayNo) (x : Bay) :
    (s.setBay b x).bay c = if c = b then x else s.bay c :=
  Eight.get_set_eq _ _ _ _

/-- The induction over the moves of an event, for a condition on each bay under the motion state. -/
theorem State.Moves.bays {P : Motion → Bay → Prop} {i : Instr} {s t : State} (h : s.Moves i t)
    (touch : ∀ c x y, P c.motion x → Bay.Touched c x y → P c.motion y)
    (act : ∀ u b (a : Act), s.Moves i u → brings i b a → a.Fits u b → P u.motion.state (u.bay b) →
      P u.motion.state (a.run u.ctx ⟨u.bay b, []⟩).bay)
    (motion : ∀ c m x, P m x → P c.motion (Work.motionChanged c ⟨x, []⟩).bay)
    (hs : ∀ b, P s.motion.state (s.bay b)) (b : BayNo) : P t.motion.state (t.bay b) := by
  induction h generalizing b with
  | start => exact hs b
  | beside _ hb ih => rw [hb.motion, hb.bay]; exact ih b
  | @touch u c x _ hx ih =>
    rw [State.bay_setBay_eq]
    split
    exacts [touch u.ctx _ _ (ih c) hx, ih b]
  | @act u c a hu hi hf ih =>
    rw [State.onBay_motion, State.onBay_bay]
    split
    exacts [act u c a hu hi hf (ih c), ih b]
  | @motion u m _ ih =>
    rw [State.setMotion_motion, State.setMotion_bay]
    split
    next hm => rw [hm]; exact ih b
    next hm => exact motion ⟨u.now, m.state⟩ _ _ (ih b)

/-- One step idles, moves the bays, or is part reset; the queue of events is no concern of the bays. -/
theorem step_cases {s t : State} (h : step s = .next t) :
    t = s ∨ ∃ i s', s.Alike s' ∧ exec i s' = .next t := by
  unfold step at h
  split at h
  · exact .inl (Host.Outcome.next.inj h).symm
  next i rest _ => exact .inr ⟨i, s.withPending rest, .of_eq rfl rfl rfl rfl rfl, h⟩

/-- A condition on each bay that part reset brings about and every move keeps, every step keeps. -/
theorem step_keeps_bays {P : Motion → Bay → Prop} {s t : State}
    (touch : ∀ c x y, P c.motion x → Bay.Touched c x y → P c.motion y)
    (act : ∀ i s' u b (a : Act), s.Beside s' → s'.Moves i u → a.Fits u b → P u.motion.state (u.bay b) →
      P u.motion.state (a.run u.ctx ⟨u.bay b, []⟩).bay)
    (motion : ∀ c m x, P m x → P c.motion (Work.motionChanged c ⟨x, []⟩).bay)
    (reset : ∀ x : Bay, P .blind x.afterReset)
    (hs : ∀ b, P s.motion.state (s.bay b)) (h : step s = .next t) (b : BayNo) : P t.motion.state (t.bay b) := by
  obtain rfl | ⟨i, s', hs', hexec⟩ := step_cases h
  · exact hs b
  have hP : ∀ b, P s'.motion.state (s'.bay b) := fun b => by rw [hs'.motion, hs'.bay]; exact hs b
  by_cases hi : i = .partReset
  · subst hi
    obtain rfl := Host.Outcome.next.inj hexec
    rw [State.bay_partReset]
    exact reset _
  · exact (exec_moves hexec hi).bays touch (fun u b a hu _ => act i s' u b a hs'.toBeside hu) motion hP b

end Sys2Proof.Machine
end

section
/-!
Output lines, fault kind and retract cause are those of the state (R19, R26, R76, R165): each entry brings this about, and
every response keeps it.
-/

namespace Sys2Proof.Machine

/-- Fault kind, retract cause and output lines are those of the state. -/
def Bay.Shaped (x : Bay) : Prop := x.detailsFollowState = true ∧ x.linesFollowState = true

/-- The fields that the fault kind, the retract cause and the lines rest on. -/
theorem Bay.Shaped.congr {x y : Bay} (hx : x.Shaped)
    (h : (y.state, y.fault, y.cause, y.phase, y.spin, y.hld, y.rtr, y.pulseTimer) =
      (x.state, x.fault, x.cause, x.phase, x.spin, x.hld, x.rtr, x.pulseTimer)) : y.Shaped := by
  simp only [Prod.mk.injEq] at h
  obtain ⟨h1, h2, h3, h4, h5, h6, h7, h8⟩ := h
  simpa only [Bay.Shaped, Bay.detailsFollowState, Bay.linesFollowState, h1, h2, h3, h4, h5, h6, h7, h8] using hx

/-- SPIN is asserted while the spindle is to turn (R26). -/
theorem Bay.Shaped.spin {x : Bay} (h : x.Shaped) (hs : x.state ∈ [.spinningUp, .spun, .loading, .ready, .unloading]) :
    x.spin = true := by
  have hl := h.2
  simp only [List.mem_cons, List.not_mem_nil, or_false] at hs
  obtain hs | hs | hs | hs | hs := hs <;> simp only [Bay.linesFollowState, hs, Bool.and_eq_true] at hl
  exacts [hl.1.1, hl.1.1, hl.1.1, hl.1.1, hl.1.1]

theorem Bay.Shaped.retracting {x : Bay} (h : x.Shaped) (hs : x.state = .retracting) :
    (x.spin = true ∨ x.cause = some .clear) ∧ x.cause ≠ none := by
  have hl := h.2
  simp only [Bay.linesFollowState, hs, Bool.and_eq_true, Bool.or_eq_true, decide_eq_true_eq] at hl
  exact ⟨hl.1.1.1, hl.1.1.2⟩

theorem Bay.Shaped.loading {x : Bay} (h : x.Shaped) (hs : x.state = .loading) (hp : x.phase ≠ some .withdraw) :
    x.hld = true := by
  have hl := h.2
  simp only [Bay.linesFollowState, hs, Bool.and_eq_true, beq_iff_eq] at hl
  simpa [hp] using hl.1.2

namespace Work
variable (c : Ctx) (w : Work)

theorem shaped_toReleased : (w.toReleased c).bay.Shaped := by
  simp [Bay.Shaped, toReleased, Bay.detailsFollowState, Bay.linesFollowState]

theorem shaped_toQueued : (w.toQueued c).bay.Shaped := by
  simp [Bay.Shaped, toQueued, Bay.detailsFollowState, Bay.linesFollowState]

variable {w} in
theorem shaped_idleTest (h : w.bay.Shaped) : (w.idleTest c).bay.Shaped := by
  obtain ⟨-, e⟩ | ⟨-, -, e⟩ | ⟨-, -, e⟩ := w.idleTest_cases c <;> rw [e]
  exacts [w.shaped_toReleased c, w.shaped_toQueued c, h]

theorem shaped_toIdle : (w.toIdle c).bay.Shaped :=
  shaped_idleTest c (by simp [Bay.Shaped, Bay.detailsFollowState, Bay.linesFollowState])

variable {w} in
theorem shaped_releasedTest (h : w.bay.Shaped) : (w.releasedTest c).bay.Shaped := by
  unfold releasedTest
  split
  exacts [h, w.shaped_toIdle c]

theorem shaped_toFaulted (kind : FaultKind) (keepSpin : Bool) (h : keepSpin = true → kind = .headsStuck) :
    (w.toFaulted c kind keepSpin).bay.Shaped := by
  cases keepSpin
  · simp [Bay.Shaped, toFaulted, Bay.detailsFollowState, Bay.linesFollowState]
  · simp [Bay.Shaped, toFaulted, Bay.detailsFollowState, Bay.linesFollowState, h rfl]

theorem shaped_toSpinningDown (mayWatch : Bool) : (w.toSpinningDown c mayWatch).bay.Shaped := by
  obtain ⟨-, -, e⟩ | ⟨-, e⟩ := w.toSpinningDown_cases c mayWatch <;> rw [e]
  · exact shaped_toIdle c _
  · simp [Bay.Shaped, Bay.detailsFollowState, Bay.linesFollowState]

variable {w}

theorem shaped_toReady (h : w.bay.spin = true) : (w.toReady c).bay.Shaped := by
  simp [Bay.Shaped, toReady, Bay.detailsFollowState, Bay.linesFollowState, h]

theorem shaped_startSettle (h : w.bay.Shaped) (hs : w.bay.state = .loading) (hh : w.bay.hld = true) :
    (w.startSettle c).bay.Shaped := by
  have hspin := h.spin (by simp [hs])
  unfold startSettle
  split
  · exact shaped_toReady c hspin
  · obtain ⟨hd, hl⟩ := h
    simp only [Bay.linesFollowState, hs, hspin, hh, Bool.and_eq_true, Bool.not_eq_true'] at hl
    simp only [Bay.detailsFollowState, hs] at hd
    exact ⟨by simpa [Bay.detailsFollowState, hs] using hd, by simp [Bay.linesFollowState, hs, hspin, hh, hl.2]⟩

theorem shaped_toLoading (h : w.bay.spin = true) : (w.toLoading c).bay.Shaped := by
  have hv : ((w.enter c .loading).edit fun x => { x with
      hld := true
      phase := some .seek
      headTimer := some (.load, dueAfter c.now x.timing.loadTime) }).bay.Shaped := by
    simp [Bay.Shaped, Bay.detailsFollowState, Bay.linesFollowState, h]
  unfold toLoading
  dsimp only
  split
  · exact hv
  · exact shaped_startSettle c hv (by simp) (by simp)

theorem shaped_toRetracting (cause : Cause) (h : w.bay.spin = true ∨ cause = .clear) :
    (w.toRetracting c cause).bay.Shaped := by
  obtain h | rfl := h
  · simp [Bay.Shaped, toRetracting, Bay.detailsFollowState, Bay.linesFollowState, h]
  · simp [Bay.Shaped, toRetracting, Bay.detailsFollowState, Bay.linesFollowState]

theorem shaped_spunTest (h : w.bay.Shaped) (hs : w.bay.state = .spun) : (w.spunTest c).bay.Shaped := by
  obtain ⟨-, e⟩ | ⟨-, -, e⟩ | ⟨-, -, e⟩ := w.spunTest_cases c <;> rw [e]
  exacts [w.shaped_toSpinningDown c _, shaped_toLoading c (h.spin (by simp [hs])), h.congr rfl]

theorem shaped_toSpun (fromSpinup : Bool) (h : w.bay.spin = true) : (w.toSpun c fromSpinup).bay.Shaped := by
  unfold toSpun
  split
  · exact w.shaped_toFaulted c _ _ (by simp)
  split
  · exact w.shaped_toSpinningDown c _
  dsimp only
  split
  · exact shaped_toRetracting c _ (.inl (by simpa using h))
  · exact shaped_spunTest c (by simp [Bay.Shaped, Bay.detailsFollowState, Bay.linesFollowState, h]) (by simp)

theorem shaped_toUnloading (h : w.bay.spin = true) : (w.toUnloading c).bay.Shaped := by
  unfold toUnloading
  dsimp only
  split
  · exact shaped_toSpun c _ (by simpa using h)
  · simp [Bay.Shaped, Bay.detailsFollowState, Bay.linesFollowState, h]

/-- A retract that ends leaves by its cause, with SPIN asserted for every cause but CLEAR (R76, R92). -/
theorem shaped_retractParked (h : w.bay.spin = true ∨ w.bay.cause = some .clear) : (w.retractParked c).bay.Shaped := by
  unfold retractParked
  dsimp only
  split
  · split
    exacts [shaped_toFaulted c _ _ _ (by simp), shaped_toSpinningDown c _ _]
  · exact shaped_toFaulted c _ _ _ (by simp)
  next hc _ => exact shaped_toSpun c _ (h.resolve_right hc)

theorem shaped_demandWritten (old : Demand) (h : w.bay.Shaped) : (w.demandWritten c old).bay.Shaped := by
  have hs : (if old ≠ w.bay.merged ∧ w.bay.merged = .stop then w.edit Bay.clearRetry else w).bay.Shaped := by
    split
    exacts [h.congr rfl, h]
  unfold demandWritten
  dsimp only
  split
  · exact shaped_idleTest c hs
  · exact shaped_releasedTest c h
  · split
    exacts [shaped_toIdle c _, h]
  · split
    exacts [shaped_toSpinningDown c _ _, h]
  next hst =>
    split
    exacts [shaped_spunTest c h hst, h]
  next hst =>
    have hspin := h.spin (by simp [hst])
    split
    · split
      exacts [shaped_toRetracting c _ (.inl hspin), shaped_toUnloading c hspin]
    · exact h
  next hst =>
    split
    exacts [shaped_toUnloading c (h.spin (by simp [hst])), h]
  · exact hs
  all_goals exact h

theorem shaped_motionChanged (h : w.bay.Shaped) : (w.motionChanged c).bay.Shaped := by
  unfold motionChanged
  dsimp only
  split
  · split
    exacts [shaped_toSpinningDown c _ _, h]
  next hst => exact shaped_spunTest c h hst
  next hst =>
    have hspin := h.spin (by simp [hst])
    split
    · split
      exacts [shaped_toRetracting c _ (.inl hspin), h]
    · split
      · exact shaped_toRetracting c _ (.inl hspin)
      · split
        exacts [shaped_toUnloading c hspin, h]
  next hst =>
    have hspin := h.spin (by simp [hst])
    split
    · exact shaped_toRetracting c _ (.inl hspin)
    · split
      exacts [shaped_toUnloading c hspin, h]
  next hst =>
    split
    exacts [shaped_toRetracting c _ (.inl (h.spin (by simp [hst]))), h]
  all_goals exact h

theorem shaped_ejectorOpened (h : w.bay.Shaped) : (w.ejectorOpened c).bay.Shaped := by
  unfold ejectorOpened
  split
  · exact shaped_idleTest c (h.congr rfl)
  · exact shaped_toIdle c _
  · exact shaped_toSpinningDown c _ _
  next hst => exact shaped_spunTest c h hst
  next hst =>
    have hspin := h.spin (by simp [hst])
    split
    exacts [shaped_toRetracting c _ (.inl hspin), shaped_toUnloading c hspin]
  next hst => exact shaped_toUnloading c (h.spin (by simp [hst]))
  next hst => exact shaped_toRetracting c _ (.inl (h.spin (by simp [hst])))
  · exact h.congr rfl
  all_goals exact h

theorem shaped_ejectorClosed (h : w.bay.Shaped) : (w.ejectorClosed c).bay.Shaped := by
  unfold ejectorClosed
  split
  · exact shaped_idleTest c h
  · exact shaped_releasedTest c h
  next hst => exact shaped_spunTest c h hst
  · exact h

theorem shaped_fltAsserted (h : w.bay.Shaped) : (w.fltAsserted c).bay.Shaped := by
  unfold fltAsserted
  split
  iterate 5 exact shaped_toFaulted c _ _ _ (by simp)
  iterate 3 next hst => exact shaped_toRetracting c _ (.inl (h.spin (by simp [hst])))
  all_goals exact h

theorem shaped_prkAsserted (h : w.bay.Shaped) : (w.prkAsserted c).bay.Shaped := by
  unfold prkAsserted
  split
  · split
    · unfold watchParked
      dsimp only
      split
      · exact shaped_toIdle c _
      · split
        exacts [shaped_toFaulted c _ _ _ (by simp), h.congr rfl]
    · exact h
  next hst =>
    split
    exacts [shaped_toSpun c _ (h.spin (by simp [hst])), h]
  next hst => exact shaped_toSpun c _ (h.spin (by simp [hst]))
  next hst => exact shaped_toSpun c _ (h.spin (by simp [hst]))
  next hst =>
    split
    exacts [h, shaped_retractParked c (h.retracting hst).1]
  all_goals exact h

theorem shaped_prkDropped (h : w.bay.Shaped) : (w.prkDropped c).bay.Shaped := by
  unfold prkDropped
  split
  next hst => exact shaped_toRetracting c _ (.inl (h.spin (by simp [hst])))
  next hst =>
    split
    next hp => exact shaped_startSettle c h hst (h.loading hst (by simp [hp]))
    next => exact h
  · exact h

theorem shaped_speedLost (h : w.bay.Shaped) : (w.speedLost c).bay.Shaped := by
  unfold speedLost
  split
  · exact shaped_toFaulted c _ _ _ (by simp)
  iterate 3 next hst => exact shaped_toRetracting c _ (.inl (h.spin (by simp [hst])))
  exact h

theorem shaped_inState {act : Work → Work} (st : BayState) (h : w.bay.Shaped)
    (hact : w.bay.state = st → (act w).bay.Shaped) : (w.inState st act).bay.Shaped := by
  unfold inState
  split
  exacts [hact ‹_›, h]

end Work

/-- The speed monitor's bookkeeping touches no line. -/
theorem Bay.Shaped.pulse (c : Ctx) {x : Bay} (h : x.Shaped) : (Work.pulse c ⟨x, []⟩).bay.Shaped := by
  unfold Work.pulse
  dsimp only
  split
  · exact h.congr rfl
  split
  · exact h.congr rfl
  split
  · exact h.congr rfl
  unfold Work.periodMeasured
  dsimp only
  split
  · split
    · split
      next hat =>
        have hst : x.state = .spinningUp := by
          simp only [Bay.atSpeedDue, Bool.and_eq_true, decide_eq_true_eq] at hat
          exact hat.1
        exact Work.shaped_toSpun c _ (h.spin (by simp [hst]))
      next => exact h.congr rfl
    · split
      exacts [Work.shaped_speedLost c (h.congr rfl), h.congr rfl]
  · exact h.congr rfl

/-- Every response keeps fault kind, retract cause and lines those of the state. -/
theorem Act.run_shaped (a : Act) (c : Ctx) {x : Bay} (h : x.Shaped) : (a.run c ⟨x, []⟩).bay.Shaped := by
  cases a with
  | writeDemand p level =>
    dsimp only [Act.run, Work.writeDemand]
    split
    · split
      · exact Work.shaped_demandWritten c _ (h.congr (by simp))
      · exact Work.shaped_demandWritten c _ (h.congr (by simp))
    · exact h
  | askRelease p =>
    dsimp only [Act.run, Work.askRelease]
    split
    exacts [h, Work.shaped_demandWritten c _ (h.congr (by simp))]
  | restartFlag p =>
    have hv : ((x.setFlag p false).relight c).Shaped := h.congr (by simp)
    dsimp only [Act.run, Work.restartFlag]
    split
    exacts [Work.shaped_releasedTest c hv, hv]
  | faultCleared =>
    dsimp only [Act.run, Work.faultCleared]
    split
    exacts [Work.shaped_toRetracting c _ (.inr rfl), Work.shaped_toSpinningDown c _ _]
  | granted sn => simp [Bay.Shaped, Act.run, Work.granted, Bay.detailsFollowState, Bay.linesFollowState]
  | presence =>
    dsimp only [Act.run, Work.presenceSettled]
    split
    · exact h.congr rfl
    split
    · split
      · split
        exacts [Work.shaped_toReleased c _, Work.shaped_toIdle c _]
      · exact h.congr rfl
    · simp [Bay.Shaped, Work.toEmpty, Bay.detailsFollowState, Bay.linesFollowState]
  | ejector =>
    dsimp only [Act.run, Work.ejectorSettled]
    split
    · exact h.congr rfl
    · have hv : (Bay.relight c { x with ejectorOpen := x.ejc, ejcTimer := none }).Shaped := h.congr (by simp)
      split
      exacts [Work.shaped_ejectorOpened c hv, Work.shaped_ejectorClosed c hv]
  | flt =>
    dsimp only [Act.run, Work.fltFiltered]
    split
    · exact h.congr rfl
    · split
      · exact Work.shaped_fltAsserted c (h.congr rfl)
      · split
        exacts [Work.shaped_idleTest c (h.congr rfl), h.congr rfl]
  | prk =>
    dsimp only [Act.run, Work.prkFiltered]
    split
    · exact h.congr rfl
    · split
      exacts [Work.shaped_prkAsserted c (h.congr rfl), Work.shaped_prkDropped c (h.congr rfl)]
  | pulse => exact h.pulse c
  | absence =>
    dsimp only [Act.run, Work.absence]
    split
    exacts [Work.shaped_speedLost c (h.congr rfl), h.congr rfl]
  | quiet =>
    dsimp only [Act.run, Work.quietRanOut, Work.stopped]
    split
    · split
      exacts [Work.shaped_toIdle c _, h.congr rfl]
    · exact h.congr rfl
  | spinup =>
    refine Work.shaped_inState _ h fun _ => ?_
    dsimp only [Work.spinupTimedOut]
    split
    exacts [Work.shaped_toSpinningDown c _ _, Work.shaped_toFaulted c _ _ _ (by simp)]
  | spindown =>
    refine Work.shaped_inState _ h fun _ => ?_
    dsimp only [Work.spindownTimedOut]
    split
    exacts [h.congr rfl, Work.shaped_toFaulted c _ _ _ (by simp)]
  | watch => exact Work.shaped_inState _ h fun _ => Work.shaped_toFaulted c _ _ _ fun _ => rfl
  | dwell =>
    refine Work.shaped_inState _ h fun hst => ?_
    dsimp only [Work.dwellRanOut]
    split
    exacts [Work.shaped_toLoading c (h.spin (by simp [show x.state = _ from hst])), h.congr rfl]
  | load =>
    refine Work.shaped_inState _ h fun hst => ?_
    have hst : x.state = .loading := hst
    obtain ⟨hd, hl⟩ := h
    simp only [Bay.linesFollowState, hst, Bool.and_eq_true] at hl
    exact ⟨hd, by simp [Work.loadTimedOut, Bay.linesFollowState, hst, hl.1.1, hl.2]⟩
  | settle => exact Work.shaped_inState _ h fun hst => Work.shaped_toReady c (h.spin (by simp [show x.state = _ from hst]))
  | withdraw =>
    refine Work.shaped_inState _ h fun hst => ?_
    dsimp only [Work.withdrawRanOut]
    split
    exacts [Work.shaped_toFaulted c _ _ _ (by simp),
      Work.shaped_toRetracting c _ (.inl (h.spin (by simp [show x.state = _ from hst])))]
  | unload =>
    exact Work.shaped_inState _ h fun hst =>
      Work.shaped_toRetracting c _ (.inl (h.spin (by simp [show x.state = _ from hst])))
  | retractPulse =>
    refine Work.shaped_inState _ h fun hst => ?_
    have hst : x.state = .retracting := hst
    dsimp only [Work.pulseEnded]
    split
    · exact Work.shaped_retractParked c (h.retracting hst).1
    · obtain ⟨hd, hl⟩ := h
      simp only [Bay.linesFollowState, hst, Bool.and_eq_true] at hl
      refine ⟨hd, ?_⟩
      simp only [Work.edit_bay, Bay.linesFollowState, hst, Bool.and_eq_true]
      exact ⟨hl.1, rfl⟩
  | retract =>
    refine Work.shaped_inState _ h fun hst => ?_
    dsimp only [Work.retractRanOut]
    split
    exacts [Work.shaped_retractParked c (h.retracting hst).1, Work.shaped_toFaulted c _ _ _ fun _ => rfl]

/-- A removal leaves the LED off (R156, R165). -/
theorem Work.ledFollowsState_toEmpty (c : Ctx) (w : Work) (h : w.bay.ledLineHolds = true) :
    (w.toEmpty c).bay.ledFollowsState = true :=
  Bay.ledFollowsState_relight c _ h

theorem Act.run_ledFollowsState (a : Act) (c : Ctx) {x : Bay} (h : x.ledFollowsState = true) :
    (a.run c ⟨x, []⟩).bay.ledFollowsState = true := by
  by_cases hr : a.removes x
  · rw [Act.run_removes hr]
    exact Work.ledFollowsState_toEmpty c _ ((Bay.ledFollowsState_iff x).mp h).2
  by_cases hgrant : ∃ sn, a = .granted sn
  · obtain ⟨sn, rfl⟩ := hgrant
    exact Work.granted_ledFollowsState sn c _ h
  · obtain ⟨v, hv, hg⟩ := a.opens c x hr (not_exists.mp hgrant)
    exact hg.ledFollowsState (hv.light h)

theorem Bay.Touched.shaped {c : Ctx} {x y : Bay} (h : x.Touched c y) (hx : x.Shaped) : y.Shaped := by
  cases h with
  | raw => exact hx.congr rfl
  | toggle => exact hx.congr rfl
  | clearFlag p => exact hx.congr (by simp)

theorem Bay.Touched.ledFollowsState {c : Ctx} {x y : Bay} (h : x.Touched c y) (hx : x.ledFollowsState = true) :
    y.ledFollowsState = true := by
  cases h with
  | raw => rw [← hx]; exact Bay.ledFollowsState_congr rfl
  | toggle hrun =>
    obtain ⟨hp, hl⟩ := (Bay.ledFollowsState_iff x).mp hx
    refine (Bay.ledFollowsState_iff _).mpr ⟨hp, ?_⟩
    revert hl
    simp only [Bay.ledLineHolds, Bay.toggleLed]
    cases x.ledPattern <;> simp [LedPattern.half, Option.isSome_iff_ne_none.mp hrun]
  | clearFlag p => exact Bay.ledFollowsState_rewrite c (Bay.setFlag_light _ _ _) hx

theorem Bay.afterReset_shaped (x : Bay) : x.afterReset.Shaped := by
  unfold Bay.afterReset
  cases x.prs <;> cases x.flt <;>
    simp [Bay.Shaped, Bay.detailsFollowState, Bay.linesFollowState, Bay.reset]

theorem Bay.afterReset_ledFollowsState (x : Bay) : x.afterReset.ledFollowsState = true := by
  unfold Bay.afterReset
  refine Bay.ledFollowsState_relight _ _ ?_
  cases x.prs <;> cases x.flt <;> rfl

end Sys2Proof.Machine

namespace Sys2Proof
open Machine

/-- Settles O9: every entry writes the lines, the details and the LED of its state, and every response goes by entries. -/
theorem stepKeepsLinesWithState : Obligations.StepKeepsLinesWithState := by
  unfold Obligations.StepKeepsLinesWithState
  intro s t hs hstep b
  have key := step_keeps_bays (P := fun _ x => x.Shaped ∧ x.ledFollowsState = true)
    (fun _ _ _ hx h => ⟨h.shaped hx.1, h.ledFollowsState hx.2⟩)
    (fun _ _ u _ a _ _ _ hx => ⟨a.run_shaped u.ctx hx.1, a.run_ledFollowsState u.ctx hx.2⟩)
    (fun c _ _ hx => ⟨Work.shaped_motionChanged c hx.1, Work.Goes.stay.motionChanged.ledFollowsState hx.2⟩)
    (fun x => ⟨x.afterReset_shaped, x.afterReset_ledFollowsState⟩)
    (fun b => ⟨⟨(hs b).1, (hs b).2.1⟩, (hs b).2.2⟩) hstep b
  exact ⟨key.1.1, key.1.2, key.2⟩

end Sys2Proof
end

section
/-!
The queue under the moves of an event (R99), and the speed monitors (R18, R28, R64, R65, R71).
-/

namespace Sys2Proof.Machine

/-! ### A response's record follows what it hands on -/

/-- The state of a response is the last one it entered (R27). -/
theorem Act.run_state (a : Act) (c : Ctx) (x : Bay) :
    (a.run c ⟨x, []⟩).bay.state = (x.state :: entries (a.run c ⟨x, []⟩).facts).getLast (by simp) := by
  by_cases hr : a.removes x
  · simp [Act.run_removes hr, Work.toEmpty]
  by_cases hgrant : ∃ sn, a = .granted sn
  · obtain ⟨sn, rfl⟩ := hgrant
    simp [Act.run]
  · obtain ⟨v, hv, hg⟩ := a.opens c x hr (not_exists.mp hgrant)
    have ht := (hg.tracks (Work.Tracks.start c v.bay v.facts hv.facts)).state
    rw [ht]
    simp only [hv.state]

theorem Act.run_since (a : Act) (c : Ctx) (x : Bay) :
    (a.run c ⟨x, []⟩).bay.since = if entries (a.run c ⟨x, []⟩).facts = [] then x.since else c.now := by
  by_cases hr : a.removes x
  · simp [Act.run_removes hr, Work.toEmpty]
  by_cases hgrant : ∃ sn, a = .granted sn
  · obtain ⟨sn, rfl⟩ := hgrant
    simp [Act.run]
  · obtain ⟨v, hv, hg⟩ := a.opens c x hr (not_exists.mp hgrant)
    have ht := (hg.tracks (Work.Tracks.start c v.bay v.facts hv.facts)).since
    rw [ht, hv.since]

theorem Work.motionChanged_tracks (c : Ctx) (x : Bay) : (Work.motionChanged c ⟨x, []⟩).Tracks c x :=
  Work.Goes.stay.motionChanged.tracks (.start c x [] rfl)

/-! ### The queue (R99, R100) -/

/-- A bay's facts move it, and only it, in the queue: out of it, and to its back where the last state entered is
QUEUED. -/
theorem Arbiter.onFacts_queue (b : BayNo) (fs : List Fact) (a : Arbiter) (h : a.queue.Nodup) :
    (fs.foldl (fun a f => a.onFact b f) a).queue =
      match (entries fs).getLast? with
      | none => a.queue
      | some .queued => a.queue.erase b ++ [b]
      | some _ => a.queue.erase b := by
  induction fs using List.reverseRecOn with
  | nil => rfl
  | append_singleton fs f ih =>
    rw [List.foldl_append, List.foldl_cons, List.foldl_nil, entries_append]
    have hb : b ∉ a.queue.erase b := h.not_mem_erase
    cases f with
    | entered st =>
      have herase : (fs.foldl (fun a f => a.onFact b f) a).queue.erase b = a.queue.erase b := by
        rw [ih]
        split
        · rfl
        · rw [List.erase_append_right _ hb]; simp
        · exact List.erase_of_not_mem hb
      rw [show entries [Fact.entered st] = [st] from rfl, List.getLast?_concat]
      generalize fs.foldl (fun a f => a.onFact b f) a = a' at herase
      cases st <;> simp only [Arbiter.onFact, herase]
    | leftEmpty => simpa [Arbiter.onFact] using ih
    | ejectorSet o => simpa [Arbiter.onFact] using ih
    | demandRaised p => simpa [Arbiter.onFact] using ih

/-- The same by the state the bay comes to stand in. -/
theorem Arbiter.onFacts_queue_of_last (b : BayNo) (fs : List Fact) (a : Arbiter) (h : a.queue.Nodup) {st st₀ : BayState}
    (hst : st = (st₀ :: entries fs).getLast (by simp)) :
    (fs.foldl (fun a f => a.onFact b f) a).queue =
      if entries fs = [] then a.queue
      else if st = .queued then a.queue.erase b ++ [b] else a.queue.erase b := by
  rw [Arbiter.onFacts_queue b fs a h]
  generalize entries fs = l at hst
  obtain rfl | ⟨l, last, rfl⟩ := l.eq_nil_or_concat
  · rfl
  · have hlast : st = last := by rw [hst]; simp
    subst hlast
    cases st <;> simp

/-- Every state entry leaves an evaluation owed (R107). -/
theorem Arbiter.onFacts_evalOwed (b : BayNo) (fs : List Fact) (a : Arbiter) :
    (fs.foldl (fun a f => a.onFact b f) a).evalOwed = (a.evalOwed || decide (entries fs ≠ [])) := by
  induction fs using List.reverseRecOn with
  | nil => simp
  | append_singleton fs f ih =>
    rw [List.foldl_append, List.foldl_cons, List.foldl_nil, entries_append]
    cases f with
    | entered st =>
      generalize fs.foldl (fun a f => a.onFact b f) a = a'
      cases st <;> simp [Arbiter.onFact]
    | leftEmpty => simpa [Arbiter.onFact] using ih
    | ejectorSet o => simpa [Arbiter.onFact] using ih
    | demandRaised p => simpa [Arbiter.onFact] using ih

theorem Event.onBay_arbiter (b : BayNo) (f : Ctx → Work → Work) (e : Event) :
    (e.onBay b f).st.arbiter =
      (f e.st.ctx ⟨e.st.bay b, []⟩).facts.foldl (fun a x => a.onFact b x) e.st.arbiter := by
  rw [(Event.onBay_spec b f e).2]

/-- A bay whose state is the last one it entered keeps the queue matching. -/
theorem Event.onBay_queueMatches (b : BayNo) (f : Ctx → Work → Work) (e : Event) (h : e.st.queueMatches)
    (hf : (f e.st.ctx ⟨e.st.bay b, []⟩).bay.state =
      ((e.st.bay b).state :: entries (f e.st.ctx ⟨e.st.bay b, []⟩).facts).getLast (by simp)) :
    (e.onBay b f).st.queueMatches := by
  obtain ⟨hnodup, hmem⟩ := h
  generalize hw : f e.st.ctx ⟨e.st.bay b, []⟩ = w at hf
  have hq := Arbiter.onFacts_queue_of_last b w.facts e.st.arbiter hnodup hf
  have hb : b ∉ e.st.arbiter.queue.erase b := hnodup.not_mem_erase
  have herase : ∀ c, c ≠ b → (c ∈ e.st.arbiter.queue.erase b ↔ c ∈ e.st.arbiter.queue) :=
    fun c hc => List.mem_erase_of_ne hc
  unfold State.queueMatches
  rw [Event.onBay_arbiter, hw, hq]
  simp only [Event.onBay_bay, hw]
  split
  next hl =>
    have hstay : w.bay.state = (e.st.bay b).state := by simp only [hf, hl, List.getLast_singleton]
    refine ⟨hnodup, fun c => ?_⟩
    rw [hmem c]
    split
    next hc => rw [hc, hstay]
    next => rfl
  next =>
    split
    next hst =>
      refine ⟨List.nodup_append.mpr ⟨hnodup.erase b, by simp, fun c hc d hd => ?_⟩, fun c => ?_⟩
      · rintro rfl
        rw [List.mem_singleton.mp hd] at hc
        exact hb hc
      · split
        next hc => simp [hc, hst]
        next hc => simp [hc, herase c hc, hmem c]
    next hst =>
      refine ⟨hnodup.erase b, fun c => ?_⟩
      split
      next hc => simp [hc, hb, hst]
      next hc => rw [herase c hc, hmem c]

theorem State.queueMatches_of_eq {s t : State} (h : s.queueMatches) (hb : t.bays = s.bays)
    (hq : t.arbiter.queue = s.arbiter.queue) : t.queueMatches := by
  unfold State.queueMatches
  simp only [hq, show ∀ b, t.bay b = s.bay b from fun b => by simp only [State.bay, hb]]
  exact h

theorem Event.onBays_queueMatches (bs : List BayNo) (f : Ctx → Work → Work) (e : Event) (h : e.st.queueMatches)
    (hf : ∀ c x, (f c ⟨x, []⟩).bay.state = (x.state :: entries (f c ⟨x, []⟩).facts).getLast (by simp)) :
    (e.onBays bs f).st.queueMatches := by
  induction bs generalizing e with
  | nil => exact h
  | cons b bs ih => exact ih _ (e.onBay_queueMatches b f h (hf _ _))

theorem State.setMotion_queueMatches (u : State) (m : MotionRecord) (h : u.queueMatches) :
    (u.event.setMotion m).st.queueMatches := by
  by_cases hm : m.state = u.motion.state
  · rw [Event.setMotion_same (e := u.event) hm]
    exact State.queueMatches_of_eq h rfl rfl
  · rw [Event.setMotion_changed (e := u.event) hm]
    exact Event.onBays_queueMatches _ _ _ (State.queueMatches_of_eq h rfl rfl)
      fun c x => (Work.motionChanged_tracks c x).state

/-- Every event but part reset keeps the queue matching (R99). -/
theorem State.Moves.queueMatches {i : Instr} {s t : State} (h : s.Moves i t) (hs : s.queueMatches) : t.queueMatches := by
  induction h with
  | start => exact hs
  | beside _ hb ih => exact State.queueMatches_of_eq ih hb.bays hb.queue
  | @touch u b x _ hx ih =>
    refine ⟨ih.1, fun c => ?_⟩
    rw [State.bay_setBay_eq]
    split
    next hc => subst hc; rw [hx.state]; exact ih.2 c
    next => exact ih.2 c
  | @act u b a _ _ _ ih => exact Event.onBay_queueMatches b a.run u.event ih (a.run_state _ _)
  | @motion u m _ ih => exact u.setMotion_queueMatches m ih

theorem Bay.afterReset_state (x : Bay) : x.afterReset.state ∈ [.empty, .faulted, .spinningDown] := by
  unfold Bay.afterReset
  cases x.prs <;> cases x.flt <;> simp [Bay.reset]

theorem State.partReset_queueMatches (s : State) : s.partReset.queueMatches := by
  refine ⟨List.nodup_nil, fun b => ?_⟩
  rw [State.bay_partReset]
  have h := (s.bay b).afterReset_state
  constructor
  · exact fun hb => absurd hb (List.not_mem_nil)
  · intro hq; rw [hq] at h; simp at h

theorem exec_keeps_queueMatches {i : Instr} {s t : State} (h : exec i s = .next t) (hs : s.queueMatches) :
    t.queueMatches := by
  by_cases hi : i = .partReset
  · subst hi
    obtain rfl := Host.Outcome.next.inj h
    exact s.partReset_queueMatches
  · exact (exec_moves h hi).queueMatches hs

/-! ### The speed monitors -/

theorem Bay.monitorHolds_congr {x y : Bay} (hx : x.monitorHolds = true)
    (h : (y.state, y.inRun, y.outRun, y.tries, y.absenceTimer, y.spin, y.quietTimer, y.quietElapsed, y.restMark) =
      (x.state, x.inRun, x.outRun, x.tries, x.absenceTimer, x.spin, x.quietTimer, x.quietElapsed, x.restMark)) :
    y.monitorHolds = true := by
  simp only [Prod.mk.injEq] at h
  simpa only [Bay.monitorHolds, h] using hx

/-- In EMPTY nothing of the monitor runs (R71, R74). -/
theorem Bay.monitorHolds_empty {x : Bay} (h : x.monitorHolds = true) (hs : x.state = .empty) :
    x.spin = false ∧ x.absenceTimer = none ∧ x.quietTimer = none ∧ x.quietElapsed = false := by
  simp only [Bay.monitorHolds, hs, if_true, Bool.and_eq_true, Bool.not_eq_true', beq_iff_eq] at h
  obtain ⟨⟨⟨-, ha⟩, ⟨hspin, hquiet⟩, helapsed⟩, -⟩ := h
  rw [hspin] at ha
  exact ⟨hspin, by simpa using ha, by simpa using hquiet, helapsed⟩

/-- A response outside EMPTY that is no removal keeps the monitor consistent. -/
theorem Act.run_monitorHolds (a : Act) (c : Ctx) {x : Bay} (h : x.monitorHolds = true) (hs : x.state ≠ .empty)
    (hr : ¬a.removes x) (hspin : a = .absence → x.spin = true) : (a.run c ⟨x, []⟩).bay.monitorHolds = true := by
  by_cases hgrant : ∃ sn, a = .granted sn
  · obtain ⟨sn, rfl⟩ := hgrant
    rw [Bay.monitorHolds_iff (by simp [Act.run])]
    exact Work.granted_monitorRuns sn c _ ((Bay.monitorHolds_iff hs).mp h)
  obtain ⟨v, hv, hg⟩ := a.opens c x hr (not_exists.mp hgrant)
  have hne : v.bay.state ≠ .empty := by rw [hv.state]; exact hs
  rw [Bay.monitorHolds_iff (hg.state_ne_empty hne)]
  exact hg.monitor (hv.monitor hs hspin ((Bay.monitorHolds_iff hs).mp h))

theorem Work.toEmpty_monitorHolds (c : Ctx) (w : Work) : (w.toEmpty c).bay.monitorHolds = true := by
  simp [Work.toEmpty, Bay.monitorHolds]

/-- The record as an insertion finds it: the carrier counts as at rest (R28, R71, R155). -/
def Bay.inserted (x : Bay) : Bay :=
  { x with present := true, prsTimer := none, restMark := true, quietElapsed := true, quietTimer := none }

/-- What the settling of PRS brings a bay: no change of the field, a removal, an insertion, or the field alone. -/
theorem Act.run_presence_cases (c : Ctx) (x : Bay) :
    x.prs = x.present ∧ Act.presence.run c ⟨x, []⟩ = ⟨{ x with prsTimer := none }, []⟩ ∨
    Act.presence.removes x ∨
    x.prs = true ∧ x.present = false ∧
      (x.state = .empty ∧ x.ejectorOpen = true ∧ Act.presence.run c ⟨x, []⟩ = Work.toReleased c ⟨x.inserted, []⟩ ∨
        x.state = .empty ∧ x.ejectorOpen = false ∧ Act.presence.run c ⟨x, []⟩ = Work.toIdle c ⟨x.inserted, []⟩ ∨
        x.state ≠ .empty ∧ Act.presence.run c ⟨x, []⟩ = ⟨{ x with present := true, prsTimer := none }, []⟩) := by
  by_cases heq : x.prs = x.present
  · exact .inl ⟨heq, if_pos heq⟩
  cases hprs : x.prs
  · exact .inr (.inl ⟨rfl, hprs, by cases hp : x.present <;> simp_all⟩)
  · have hp : x.present = false := by cases hp : x.present <;> simp_all
    refine .inr (.inr ⟨rfl, hp, ?_⟩)
    have hrun : Act.presence.run c ⟨x, []⟩ = Work.presenceSettled true c ⟨x, []⟩ := by
      rw [← hprs]; exact if_neg heq
    rw [hrun]
    by_cases hst : x.state = .empty
    · cases he : x.ejectorOpen
      · exact .inr (.inl ⟨hst, rfl, by simp [Work.presenceSettled, Work.edit, hst, he, Bay.inserted]⟩)
      · exact .inl ⟨hst, rfl, by simp [Work.presenceSettled, Work.edit, hst, he, Bay.inserted]⟩
    · exact .inr (.inr ⟨hst, by simp [Work.presenceSettled, Work.edit, hst, hprs]⟩)

theorem Work.idleTest_state_mem (c : Ctx) (w : Work) (h : w.bay.state = .idle) :
    (w.idleTest c).bay.state ∈ [.idle, .queued, .released] := by
  obtain ⟨-, e⟩ | ⟨-, -, e⟩ | ⟨-, -, e⟩ := w.idleTest_cases c <;> rw [e] <;> simp [h]

theorem Work.toIdle_state_mem (c : Ctx) (w : Work) : (w.toIdle c).bay.state ∈ [.idle, .queued, .released] :=
  Work.idleTest_state_mem c _ (by simp)

theorem Bay.inserted_monitorRuns {x : Bay} (h : x.monitorHolds = true) (hs : x.state = .empty) :
    x.inserted.monitorRuns = true := by
  have hspin := (Bay.monitorHolds_empty h hs).1
  simp only [Bay.monitorHolds, Bool.and_eq_true] at h
  obtain ⟨⟨⟨h, ha⟩, -⟩, -⟩ := h
  simp only [Bay.monitorRuns, Bool.and_eq_true]
  exact ⟨⟨⟨h, ha⟩, rfl⟩, by simp [Bay.inserted, hspin]⟩

theorem Work.demandWritten_empty (c : Ctx) (old : Demand) (w : Work) (h : w.bay.state = .empty) :
    w.demandWritten c old = w := by
  simp [Work.demandWritten, h]

/-- In EMPTY a response leaves the monitor as it is, but for an insertion. -/
theorem Act.run_monitorHolds_empty (a : Act) (c : Ctx) {x : Bay} (h : x.monitorHolds = true) (hs : x.state = .empty)
    (hr : ¬a.removes x) (hfit : (∀ sn, a ≠ .granted sn) ∧ a ≠ .faultCleared ∧ a ≠ .absence ∧ a ≠ .quiet) :
    (a.run c ⟨x, []⟩).bay.monitorHolds = true := by
  obtain ⟨hgranted, hcleared, habsence, hquiet⟩ := hfit
  cases a with
  | writeDemand p level =>
    dsimp only [Act.run, Work.writeDemand]
    split
    · split
      · rw [Work.demandWritten_empty _ _ _ (by simp [hs])]
        exact Bay.monitorHolds_congr h (by simp)
      · rw [Work.demandWritten_empty _ _ _ (by simp [hs])]
        exact Bay.monitorHolds_congr h (by simp)
    · exact h
  | askRelease p => dsimp only [Act.run, Work.askRelease]; rw [if_pos hs]; exact h
  | restartFlag p =>
    dsimp only [Act.run, Work.restartFlag]
    rw [if_neg (by simp [hs])]
    exact Bay.monitorHolds_congr h (by simp)
  | faultCleared => exact absurd rfl hcleared
  | granted sn => exact absurd rfl (hgranted sn)
  | presence =>
    have key : ∀ v : Work, Work.Goes c ⟨x.inserted, []⟩ v → v.bay.state ≠ .empty → v.bay.monitorHolds = true :=
      fun v hg hv => (Bay.monitorHolds_iff hv).mpr (hg.monitor (Bay.inserted_monitorRuns h hs))
    obtain ⟨-, e⟩ | e | ⟨-, -, ⟨-, ho, e⟩ | ⟨-, -, e⟩ | ⟨hne, -⟩⟩ := Act.run_presence_cases c x
    · rw [e]; exact Bay.monitorHolds_congr h rfl
    · exact absurd e hr
    · rw [e]
      refine key _ (Work.Goes.stay.toReleased (fun hrel => ?_) ?_) (by simp)
      · cases hs.symm.trans hrel
      · simp [Bay.freed, Bay.inserted, ho]
    · rw [e]
      have hm := Work.toIdle_state_mem c ⟨x.inserted, []⟩
      exact key _ Work.Goes.stay.toIdle fun he => by rw [he] at hm; simp at hm
    · exact absurd hs hne
  | ejector =>
    dsimp only [Act.run, Work.ejectorSettled]
    split
    · exact Bay.monitorHolds_congr h rfl
    · have hv : (Bay.relight c { x with ejectorOpen := x.ejc, ejcTimer := none }).monitorHolds = true :=
        Bay.monitorHolds_congr h (by simp)
      split <;> simpa [Work.ejectorOpened, Work.ejectorClosed, hs] using hv
  | flt =>
    dsimp only [Act.run, Work.fltFiltered, Work.fltAsserted]
    split
    · exact Bay.monitorHolds_congr h rfl
    · split <;> simp only [Work.edit, hs, reduceCtorEq, if_false] <;> exact Bay.monitorHolds_congr h (by simp [hs])
  | prk =>
    dsimp only [Act.run, Work.prkFiltered, Work.prkAsserted, Work.prkDropped]
    split
    · exact Bay.monitorHolds_congr h rfl
    · split <;> simp only [Work.edit, hs] <;> exact Bay.monitorHolds_congr h (by simp [hs])
  | pulse =>
    dsimp only [Act.run, Work.pulse]
    rw [if_pos (by simpa using hs)]
    exact Bay.monitorHolds_congr h rfl
  | absence => exact absurd rfl habsence
  | quiet => exact absurd rfl hquiet
  | _ => simpa [Act.run, Work.inState, hs] using h

/-- What brings a response to a bay that is EMPTY is no grant, no CLEAR FAULT and no timer of the monitor. -/
theorem Act.Fits.of_empty {a : Act} {u : State} {b : BayNo} (h : a.Fits u b) (hq : u.queueMatches)
    (hm : (u.bay b).monitorHolds = true) (hs : (u.bay b).state = .empty) :
    (∀ sn, a ≠ .granted sn) ∧ a ≠ .faultCleared ∧ a ≠ .absence ∧ a ≠ .quiet := by
  obtain ⟨-, habsence, hquiet, -⟩ := Bay.monitorHolds_empty hm hs
  refine ⟨?_, ?_, ?_, ?_⟩
  · rintro sn rfl
    have hqueued := (hq.2 b).mp h.1
    rw [hs] at hqueued
    cases hqueued
  · rintro rfl
    have hfaulted := h.1
    rw [hs] at hfaulted
    cases hfaulted
  · rintro rfl
    have hruns : (u.bay b).absenceTimer.isSome = true := h
    rw [habsence] at hruns
    cases hruns
  · rintro rfl
    have hruns : (u.bay b).quietTimer.isSome = true := h
    rw [hquiet] at hruns
    cases hruns

/-- The absence timer runs only while SPIN is asserted (R65). -/
theorem Bay.spin_of_absenceTimer {x : Bay} (h : x.monitorHolds = true) (ht : x.absenceTimer.isSome = true) :
    x.spin = true := by
  simp only [Bay.monitorHolds, Bool.and_eq_true] at h
  obtain ⟨⟨⟨-, ha⟩, -⟩, -⟩ := h
  simpa [ht] using ha

theorem Work.motionChanged_empty (c : Ctx) {x : Bay} (h : x.state = .empty) :
    Work.motionChanged c ⟨x, []⟩ = ⟨x, []⟩ := by
  simp [Work.motionChanged, h]

theorem Work.motionChanged_monitorHolds (c : Ctx) {x : Bay} (h : x.monitorHolds = true) :
    (Work.motionChanged c ⟨x, []⟩).bay.monitorHolds = true := by
  by_cases hs : x.state = .empty
  · rw [Work.motionChanged_empty c hs]; exact h
  · have hg : Work.Goes c ⟨x, []⟩ (Work.motionChanged c ⟨x, []⟩) := Work.Goes.stay.motionChanged
    rw [Bay.monitorHolds_iff (hg.state_ne_empty hs)]
    exact hg.monitor ((Bay.monitorHolds_iff hs).mp h)

theorem Bay.Touched.monitorHolds {c : Ctx} {x y : Bay} (h : x.Touched c y) (hx : x.monitorHolds = true) :
    y.monitorHolds = true := by
  cases h with
  | raw => exact Bay.monitorHolds_congr hx rfl
  | toggle => exact Bay.monitorHolds_congr hx rfl
  | clearFlag p => exact Bay.monitorHolds_congr hx (by simp)

theorem Bay.afterReset_monitorHolds (x : Bay) : x.afterReset.monitorHolds = true := by
  unfold Bay.afterReset
  cases x.prs <;> cases x.flt <;> simp [Bay.reset, Bay.monitorHolds]

end Sys2Proof.Machine

namespace Sys2Proof
open Machine

/-- Settles O11: outside EMPTY a response opens with edits that keep the monitor and goes on by state entries, which
keep it too; an EMPTY bay's monitor stands still until an insertion. -/
theorem stepKeepsTheSpeedMonitors : Obligations.StepKeepsTheSpeedMonitors := by
  intro s t hq hs h
  refine step_keeps_bays (P := fun _ x => x.monitorHolds = true) (fun _ _ _ hx ht => ht.monitorHolds hx) ?_
    (fun c _ _ hx => Work.motionChanged_monitorHolds c hx) Bay.afterReset_monitorHolds hs h
  intro i s' u b a hbeside hmoves hfits hx
  have hu : u.queueMatches := hmoves.queueMatches (State.queueMatches_of_eq hq hbeside.bays hbeside.queue)
  by_cases hr : a.removes (u.bay b)
  · rw [Act.run_removes hr]
    exact Work.toEmpty_monitorHolds _ _
  · by_cases hempty : (u.bay b).state = .empty
    · exact a.run_monitorHolds_empty _ hx hempty hr (hfits.of_empty hu hx hempty)
    · refine a.run_monitorHolds _ hx hempty hr ?_
      rintro rfl
      exact Bay.spin_of_absenceTimer hx hfits

end Sys2Proof
end

section
/-!
The states a bay may stand in by its demands, its ejector, its filtered lines and the motion state (R2, R31, R40, R42,
R49, R82, R96, R157, R159).
-/

namespace Sys2Proof.Machine

/-! ### What an allowed state says -/

theorem Bay.stateAllowed_congr {m : Motion} {x y : Bay} (hx : x.stateAllowed m = true)
    (h : (y.present, y.state, y.fltOn, y.demandA, y.demandB, y.ejectorOpen, y.prkOn, y.flagA, y.flagB) =
      (x.present, x.state, x.fltOn, x.demandA, x.demandB, x.ejectorOpen, x.prkOn, x.flagA, x.flagB)) :
    y.stateAllowed m = true := by
  simp only [Prod.mk.injEq] at h
  obtain ⟨hp, hs, hf, hA, hB, he, hk, hflagA, hflagB⟩ := h
  unfold Bay.stateAllowed Bay.merged at hx ⊢
  rw [hp, hs, hf, hA, hB, he, hk, hflagA, hflagB]
  exact hx

section
variable {m : Motion} {x : Bay} (h : x.stateAllowed m = true)
include h

theorem Bay.present_iff_of_allowed : x.present = true ↔ x.state ≠ .empty := by
  simp only [Bay.stateAllowed, Bool.and_eq_true, beq_iff_eq] at h
  rw [h.1.1, decide_eq_true_eq]

theorem Bay.present_of_allowed (hs : x.state ≠ .empty) : x.present = true :=
  (Bay.present_iff_of_allowed h).mpr hs

theorem Bay.fltOn_of_allowed (hs : x.state ∉ [.empty, .idle, .released, .retracting, .faulted]) : x.fltOn = false := by
  simp only [Bay.stateAllowed, Bool.and_eq_true, Bool.or_eq_true, decide_eq_true_eq, Bool.not_eq_true'] at h
  exact h.1.2.resolve_right hs

theorem Bay.merged_stop_of_allowed (hs : x.state = .empty ∨ x.state = .released) : x.merged = .stop := by
  obtain hs | hs := hs <;>
  · simp only [Bay.stateAllowed, hs, Bool.and_eq_true, decide_eq_true_eq] at h
    exact h.2

theorem Bay.queued_of_allowed (hs : x.state = .queued) : x.merged ≠ .stop ∧ x.ejectorOpen = false := by
  simpa [Bay.stateAllowed, hs] using (Bool.and_eq_true_iff.mp h).2

theorem Bay.spinningUp_of_allowed (hs : x.state = .spinningUp) :
    (x.merged ≠ .stop ∧ x.ejectorOpen = false) ∧ m ≠ .transit := by
  simpa [Bay.stateAllowed, hs] using (Bool.and_eq_true_iff.mp h).2

theorem Bay.spun_of_allowed (hs : x.state = .spun) :
    ((x.merged ≠ .stop ∧ x.ejectorOpen = false) ∧ m ≠ .transit) ∧ x.prkOn = true := by
  simpa [Bay.stateAllowed, hs] using (Bool.and_eq_true_iff.mp h).2

theorem Bay.onPlatters_of_allowed (hs : x.state = .loading ∨ x.state = .ready) :
    (x.merged = .load ∧ x.ejectorOpen = false) ∧ (m = .quiet ∨ m = .stirred) := by
  obtain hs | hs := hs <;> simpa [Bay.stateAllowed, hs] using (Bool.and_eq_true_iff.mp h).2

end

/-- A bay in a state that asks nothing of its demands, its ejector and the motion state (R43, R49, R86, R89, R157). -/
theorem Bay.allowed_of_free {m : Motion} {x : Bay} (hp : x.present = true)
    (hs : x.state ∈ [.retracting, .faulted] ∨ x.state ∈ [.unloading, .spinningDown] ∧ x.fltOn = false) :
    x.stateAllowed m = true := by
  simp only [List.mem_cons, List.not_mem_nil, or_false] at hs
  obtain (hs | hs) | ⟨hs | hs, hf⟩ := hs <;> simp [Bay.stateAllowed, *]

/-- Clearing a flag forbids no state (R11, R159). -/
theorem Bay.allowed_of_flagClear {m : Motion} {x : Bay} (hx : x.stateAllowed m = true) (c : Ctx) (p : Port) :
    ((x.setFlag p false).relight c).stateAllowed m = true := by
  refine Bay.stateAllowed_congr (x := x.setFlag p false) ?_ (by simp)
  unfold Bay.stateAllowed Bay.merged at hx ⊢
  by_cases hm : x.demandA.larger x.demandB = .stop <;> cases p <;> cases hst : x.state <;> simp_all [Bay.setFlag]

/-- RELEASED and EMPTY rest on a merged demand of STOP alone (R159, R16). -/
theorem Bay.allowed_of_released {m : Motion} {x : Bay} (hp : x.present = true) (hs : x.state = .released)
    (hm : x.merged = .stop) : x.stateAllowed m = true := by
  simp [Bay.stateAllowed, hp, hs, hm]

/-- LOADING and READY ask for LOAD, a closed ejector and a motion state that lets heads stand on the platters (R82). -/
theorem Bay.allowed_of_onPlatters {m : Motion} {x : Bay} (hp : x.present = true) (hf : x.fltOn = false)
    (hs : x.state = .loading ∨ x.state = .ready) (hm : x.merged = .load) (he : x.ejectorOpen = false)
    (hmotion : m = .quiet ∨ m = .stirred) : x.stateAllowed m = true := by
  obtain hs | hs := hs <;> obtain rfl | rfl := hmotion <;> simp [Bay.stateAllowed, *]

theorem Bay.allowed_of_spun {m : Motion} {x : Bay} (hp : x.present = true) (hf : x.fltOn = false)
    (hs : x.state = .spun) (hm : x.merged ≠ .stop) (he : x.ejectorOpen = false) (hmotion : m ≠ .transit)
    (hk : x.prkOn = true) : x.stateAllowed m = true := by
  simp [Bay.stateAllowed, *]

theorem Bay.allowed_of_spinningUp {m : Motion} {x : Bay} (hp : x.present = true) (hf : x.fltOn = false)
    (hs : x.state = .spinningUp) (hm : x.merged ≠ .stop) (he : x.ejectorOpen = false) (hmotion : m ≠ .transit) :
    x.stateAllowed m = true := by
  simp [Bay.stateAllowed, *]

theorem Bay.allowed_of_queued {m : Motion} {x : Bay} (hp : x.present = true) (hf : x.fltOn = false)
    (hs : x.state = .queued) (hm : x.merged ≠ .stop) (he : x.ejectorOpen = false) : x.stateAllowed m = true := by
  simp [Bay.stateAllowed, *]

theorem Bay.merged_eq_stop_iff (x : Bay) : x.merged = .stop ↔ x.demandA = .stop ∧ x.demandB = .stop := by
  unfold Bay.merged
  cases x.demandA <;> cases x.demandB <;> simp [Demand.larger, Demand.rank]

theorem Bay.joins_iff (x : Bay) : x.joins = true ↔ x.merged ≠ .stop ∧ x.ejectorOpen = false ∧ x.fltOn = false := by
  simp [Bay.joins, and_assoc]

/-- The release condition is a merged demand of STOP with a release (R13). -/
theorem Bay.releaseCondition_iff (x : Bay) : x.releaseCondition = true ↔
    x.merged = .stop ∧ (x.flagA = true ∨ x.flagB = true ∨ x.ejectorOpen = true) := by
  simp [Bay.releaseCondition, Bay.merged_eq_stop_iff, or_assoc]

/-- An IDLE bay that meets neither condition may stand there (R31, R159). -/
theorem Bay.allowed_of_idle {m : Motion} {x : Bay} (hp : x.present = true) (hs : x.state = .idle)
    (hr : x.releaseCondition = false) (hj : x.joins = false) : x.stateAllowed m = true := by
  have hr' := (Bay.releaseCondition_iff x).not.mp (by simp [hr])
  have hj' := (Bay.joins_iff x).not.mp (by simp [hj])
  simp only [Bay.stateAllowed, hp, hs]
  by_cases hm : x.merged = .stop
  · simp only [hm, true_and, not_or, Bool.not_eq_true] at hr'
    simp [hm, hr']
  · simp only [ne_eq, hm, not_false_eq_true, true_and, not_and, Bool.not_eq_false] at hj'
    have : x.ejectorOpen = true ∨ x.fltOn = true := by
      cases he : x.ejectorOpen <;> simp_all
    simp [hm, this]

/-! ### Entries lead to allowed states -/

namespace Work
variable (c : Ctx) {w : Work}

theorem allowed_toReleased (hp : w.bay.present = true) (hm : w.bay.merged = .stop) :
    (w.toReleased c).bay.stateAllowed c.motion = true :=
  Bay.allowed_of_released (by simpa [toReleased] using hp) (by simp) (by simpa [toReleased] using hm)

theorem allowed_toQueued (hp : w.bay.present = true) (hj : w.bay.joins = true) :
    (w.toQueued c).bay.stateAllowed c.motion = true := by
  obtain ⟨hm, he, hf⟩ := (Bay.joins_iff _).mp hj
  refine Bay.allowed_of_queued ?_ ?_ (by simp) ?_ ?_ <;> simpa [toQueued]

theorem allowed_idleTest (hp : w.bay.present = true) (hs : w.bay.state = .idle) :
    (w.idleTest c).bay.stateAllowed c.motion = true := by
  obtain ⟨hr, e⟩ | ⟨-, hj, e⟩ | ⟨hr, hj, e⟩ := w.idleTest_cases c <;> rw [e]
  exacts [allowed_toReleased c hp ((Bay.releaseCondition_iff _).mp hr).1, allowed_toQueued c hp hj,
    Bay.allowed_of_idle hp hs hr hj]

theorem allowed_toIdle (hp : w.bay.present = true) : (w.toIdle c).bay.stateAllowed c.motion = true :=
  allowed_idleTest c (by simpa using hp) (by simp)

theorem allowed_releasedTest (hp : w.bay.present = true) (hs : w.bay.state = .released) :
    (w.releasedTest c).bay.stateAllowed c.motion = true := by
  unfold releasedTest
  split
  next hr => exact Bay.allowed_of_released hp hs ((Bay.releaseCondition_iff _).mp hr).1
  next => exact allowed_toIdle c hp

theorem allowed_toFaulted (kind : FaultKind) (keepSpin : Bool) (hp : w.bay.present = true) :
    (w.toFaulted c kind keepSpin).bay.stateAllowed c.motion = true :=
  Bay.allowed_of_free (by cases keepSpin <;> simpa [toFaulted] using hp) (.inl (by simp))

theorem allowed_toRetracting (cause : Cause) (hp : w.bay.present = true) :
    (w.toRetracting c cause).bay.stateAllowed c.motion = true :=
  Bay.allowed_of_free (by simpa [toRetracting] using hp) (.inl (by simp))

theorem allowed_toSpinningDown (mayWatch : Bool) (hp : w.bay.present = true) (hf : w.bay.fltOn = false) :
    (w.toSpinningDown c mayWatch).bay.stateAllowed c.motion = true := by
  obtain ⟨-, -, e⟩ | ⟨-, e⟩ := w.toSpinningDown_cases c mayWatch <;> rw [e]
  · exact allowed_toIdle c (by simpa using hp)
  · exact Bay.allowed_of_free (by simpa using hp) (.inr ⟨by simp, by simpa using hf⟩)

/-- What a load asks of its bay, R78's dwell apart (R40, R82). -/
structure MayBear (c : Ctx) (x : Bay) : Prop where
  present : x.present = true
  fltOn : x.fltOn = false
  merged : x.merged = .load
  ejectorOpen : x.ejectorOpen = false
  motion : c.motion = .quiet ∨ c.motion = .stirred

variable {c}

theorem MayBear.of_keepsInputs {x y : Bay} (h : MayBear c x) (hxy : x.KeepsInputs y) : MayBear c y :=
  ⟨hxy.present.trans h.present, hxy.fltOn.trans h.fltOn, hxy.merged.trans h.merged,
    hxy.ejectorOpen.trans h.ejectorOpen, h.motion⟩

theorem MayBear.allowed {x : Bay} (h : MayBear c x) (hs : x.state = .loading ∨ x.state = .ready) :
    x.stateAllowed c.motion = true :=
  Bay.allowed_of_onPlatters h.present h.fltOn hs h.merged h.ejectorOpen h.motion

theorem allowed_toReady (h : MayBear c w.bay) : (w.toReady c).bay.stateAllowed c.motion = true :=
  (h.of_keepsInputs (Goes.stay (c := c)).toReady.inputs).allowed (.inr (by simp))

theorem allowed_startSettle (h : MayBear c w.bay) (hs : w.bay.state = .loading) :
    (w.startSettle c).bay.stateAllowed c.motion = true := by
  unfold startSettle
  split
  · exact allowed_toReady h
  · exact h.allowed (.inl hs)

theorem allowed_toLoading (h : MayBear c w.bay) : (w.toLoading c).bay.stateAllowed c.motion = true := by
  have he : MayBear c (w.enter c .loading).bay :=
    h.of_keepsInputs (Goes.stay.reach (c := c) .loading (by decide)).inputs
  have hv : MayBear c ((w.enter c .loading).edit fun x => { x with
      hld := true
      phase := some .seek
      headTimer := some (.load, dueAfter c.now x.timing.loadTime) }).bay :=
    ⟨he.present, he.fltOn, he.merged, he.ejectorOpen, he.motion⟩
  unfold toLoading
  dsimp only
  split
  · exact hv.allowed (.inl (by simp))
  · exact allowed_startSettle hv (by simp)

theorem mayBear_of_mayLoad {x : Bay} (hp : x.present = true) (hf : x.fltOn = false) (h : x.mayLoad c = true) :
    MayBear c x := by
  simp only [Bay.mayLoad, Bool.and_eq_true, decide_eq_true_eq, Bool.not_eq_true'] at h
  obtain ⟨⟨⟨hm, hmotion⟩, -⟩, he⟩ := h
  exact ⟨hp, hf, hm, he, .inl hmotion⟩

theorem mayBear_of_allowed {x : Bay} (h : x.stateAllowed c.motion = true) (hs : x.state = .loading ∨ x.state = .ready) :
    MayBear c x := by
  obtain ⟨⟨hm, he⟩, hmotion⟩ := Bay.onPlatters_of_allowed h hs
  refine ⟨Bay.present_of_allowed h ?_, Bay.fltOn_of_allowed h ?_, hm, he, hmotion⟩ <;>
    obtain hs | hs := hs <;> simp [hs]

theorem allowed_spunTest (hp : w.bay.present = true) (hf : w.bay.fltOn = false) (hk : w.bay.prkOn = true)
    (hs : w.bay.state = .spun) : (w.spunTest c).bay.stateAllowed c.motion = true := by
  obtain ⟨-, e⟩ | ⟨-, hl, e⟩ | ⟨hd, -, e⟩ := w.spunTest_cases c <;> rw [e]
  · exact allowed_toSpinningDown c _ hp hf
  · exact allowed_toLoading (mayBear_of_mayLoad hp hf hl)
  · simp only [Bay.mustSpinDown, Bool.or_eq_false_iff, decide_eq_false_iff_not] at hd
    exact Bay.allowed_of_spun hp hf hs hd.1.1 hd.1.2 hd.2 hk

theorem allowed_toSpun (fromSpinup : Bool) (hp : w.bay.present = true) (hk : fromSpinup = true ∨ w.bay.prkOn = true) :
    (w.toSpun c fromSpinup).bay.stateAllowed c.motion = true := by
  unfold toSpun
  split
  · exact allowed_toFaulted c _ _ hp
  next hf =>
    have hf : w.bay.fltOn = false := by simpa using hf
    split
    · exact allowed_toSpinningDown c _ hp hf
    dsimp only
    split
    · exact allowed_toRetracting c _ (by simpa using hp)
    next hstray =>
      refine allowed_spunTest (by simpa using hp) (by simpa using hf) ?_ (by simp)
      obtain rfl | hk := hk
      · simpa using hstray
      · simpa using hk

theorem allowed_toUnloading (hp : w.bay.present = true) (hf : w.bay.fltOn = false) :
    (w.toUnloading c).bay.stateAllowed c.motion = true := by
  unfold toUnloading
  dsimp only
  split
  next hk => exact allowed_toSpun _ (by simpa using hp) (.inr (by simpa using hk))
  next => exact Bay.allowed_of_free (by simpa using hp) (.inr ⟨by simp, by simpa using hf⟩)

theorem allowed_retractParked (hp : w.bay.present = true) (hk : w.bay.prkOn = true) :
    (w.retractParked c).bay.stateAllowed c.motion = true := by
  unfold retractParked
  dsimp only
  split
  · split
    next => exact allowed_toFaulted c _ _ hp
    next hf => exact allowed_toSpinningDown c _ hp (by simpa using hf)
  · exact allowed_toFaulted c _ _ hp
  · exact allowed_toSpun _ hp (.inr hk)

/-! ### So do the responses -/

theorem allowed_demandWritten {x : Bay} (hx : x.stateAllowed c.motion = true) (hs : x.state ≠ .empty)
    (hw : (w.bay.present, w.bay.state, w.bay.fltOn, w.bay.ejectorOpen, w.bay.prkOn, w.bay.phase) =
      (x.present, x.state, x.fltOn, x.ejectorOpen, x.prkOn, x.phase)) :
    (w.demandWritten c x.merged).bay.stateAllowed c.motion = true := by
  simp only [Prod.mk.injEq] at hw
  obtain ⟨hpresent, hstate, hflt, hejector, hprk, -⟩ := hw
  have hp : w.bay.present = true := hpresent.trans (Bay.present_of_allowed hx hs)
  have hf : w.bay.state ∉ [.empty, .idle, .released, .retracting, .faulted] → w.bay.fltOn = false := fun hn =>
    hflt.trans (Bay.fltOn_of_allowed hx (hstate ▸ hn))
  unfold demandWritten
  dsimp only
  split
  next hst => exact allowed_idleTest c (by split <;> simpa using hp) (by split <;> simpa using hst)
  next hst => exact allowed_releasedTest c hp hst
  next hst =>
    have hf := hf (by simp [hst])
    obtain ⟨hm, he⟩ := Bay.queued_of_allowed hx (hstate ▸ hst)
    split
    next => exact allowed_toIdle c hp
    next h => exact Bay.allowed_of_queued hp hf hst (fun hstop => h ⟨hstop ▸ hm, hstop⟩) (hejector.trans he)
  next hst =>
    have hf := hf (by simp [hst])
    obtain ⟨⟨hm, he⟩, hmotion⟩ := Bay.spinningUp_of_allowed hx (hstate ▸ hst)
    split
    next => exact allowed_toSpinningDown c _ hp hf
    next h =>
      exact Bay.allowed_of_spinningUp hp hf hst (fun hstop => h ⟨hstop ▸ hm, hstop⟩) (hejector.trans he) hmotion
  next hst =>
    have hf := hf (by simp [hst])
    obtain ⟨⟨⟨hm, he⟩, hmotion⟩, hk⟩ := Bay.spun_of_allowed hx (hstate ▸ hst)
    split
    next => exact allowed_spunTest hp hf (hprk.trans hk) hst
    next h =>
      exact Bay.allowed_of_spun hp hf hst (not_ne_iff.mp h ▸ hm) (hejector.trans he) hmotion (hprk.trans hk)
  next hst =>
    have hf := hf (by simp [hst])
    obtain ⟨⟨hm, he⟩, hmotion⟩ := Bay.onPlatters_of_allowed hx (.inl (hstate ▸ hst))
    split
    · split
      exacts [allowed_toRetracting c _ hp, allowed_toUnloading hp hf]
    next h =>
      have hload : w.bay.merged = .load := by
        by_contra hne
        exact h ⟨hm ▸ Ne.symm hne, hne⟩
      exact Bay.allowed_of_onPlatters hp hf (.inl hst) hload (hejector.trans he) hmotion
  next hst =>
    have hf := hf (by simp [hst])
    obtain ⟨⟨hm, he⟩, hmotion⟩ := Bay.onPlatters_of_allowed hx (.inr (hstate ▸ hst))
    split
    · exact allowed_toUnloading hp hf
    next h =>
      have hload : w.bay.merged = .load := by
        by_contra hne
        exact h ⟨hm ▸ Ne.symm hne, hne⟩
      exact Bay.allowed_of_onPlatters hp hf (.inr hst) hload (hejector.trans he) hmotion
  next hst =>
    have hf := hf (by simp [hst])
    split <;> exact Bay.allowed_of_free hp (.inr ⟨by simp [hst], hf⟩)
  next hst => exact absurd (hstate ▸ hst) hs
  next hst => exact Bay.allowed_of_free hp (.inr ⟨by simp [hst], hf (by simp [hst])⟩)
  next hst => exact Bay.allowed_of_free hp (.inl (by simp [hst]))
  next hst => exact Bay.allowed_of_free hp (.inl (by simp [hst]))

/-- A state that the motion state has no part in stays allowed under another. -/
theorem allowed_of_motion {m m' : Motion} {x : Bay} (hx : x.stateAllowed m = true)
    (hs : x.state ∉ [.spinningUp, .spun, .loading, .ready]) : x.stateAllowed m' = true := by
  unfold Bay.stateAllowed at hx ⊢
  cases hst : x.state <;> simp_all

theorem allowed_motionChanged {m : Motion} (hx : w.bay.stateAllowed m = true) :
    (w.motionChanged c).bay.stateAllowed c.motion = true := by
  unfold motionChanged
  dsimp only
  have hp : w.bay.state ≠ .empty → w.bay.present = true := Bay.present_of_allowed hx
  split
  next hst =>
    have hp := hp (by simp [hst])
    have hf := Bay.fltOn_of_allowed hx (by simp [hst])
    obtain ⟨⟨hm, he⟩, -⟩ := Bay.spinningUp_of_allowed hx hst
    split
    exacts [allowed_toSpinningDown c _ hp hf, Bay.allowed_of_spinningUp hp hf hst hm he ‹_›]
  next hst =>
    exact allowed_spunTest (hp (by simp [hst])) (Bay.fltOn_of_allowed hx (by simp [hst]))
      (Bay.spun_of_allowed hx hst).2 hst
  next hst =>
    have hp := hp (by simp [hst])
    have hf := Bay.fltOn_of_allowed hx (by simp [hst])
    obtain ⟨⟨hm, he⟩, -⟩ := Bay.onPlatters_of_allowed hx (.inl hst)
    have hstay : ¬((c.motion = .rough ∨ c.motion = .transit ∨ c.motion = .blind) ∨ c.motion = .alarm) →
        w.bay.stateAllowed c.motion = true := fun hn => by
      refine Bay.allowed_of_onPlatters hp hf (.inl hst) hm he ?_
      revert hn
      cases c.motion <;> simp
    split
    · split
      · exact allowed_toRetracting c _ hp
      next hn => exact hstay (by simpa [or_assoc] using hn)
    · split
      · exact allowed_toRetracting c _ hp
      next ha =>
        split
        · exact allowed_toUnloading hp hf
        next hn => exact hstay (by simpa [or_assoc, ha] using hn)
  next hst =>
    have hp := hp (by simp [hst])
    have hf := Bay.fltOn_of_allowed hx (by simp [hst])
    obtain ⟨⟨hm, he⟩, -⟩ := Bay.onPlatters_of_allowed hx (.inr hst)
    split
    · exact allowed_toRetracting c _ hp
    next ha =>
      split
      · exact allowed_toUnloading hp hf
      next hn =>
        refine Bay.allowed_of_onPlatters hp hf (.inr hst) hm he ?_
        revert hn ha
        cases c.motion <;> simp
  next hst =>
    split
    exacts [allowed_toRetracting c _ (hp (by simp [hst])), allowed_of_motion hx (by simp [hst])]
  all_goals next hst => exact allowed_of_motion hx (by simp [hst])

/-- The ejector field opened: `x` is the record before. -/
theorem allowed_ejectorOpened {x : Bay} (hx : x.stateAllowed c.motion = true)
    (hw : (w.bay.present, w.bay.state, w.bay.fltOn, w.bay.demandA, w.bay.demandB, w.bay.prkOn) =
      (x.present, x.state, x.fltOn, x.demandA, x.demandB, x.prkOn)) :
    (w.ejectorOpened c).bay.stateAllowed c.motion = true := by
  simp only [Prod.mk.injEq] at hw
  obtain ⟨hpresent, hstate, hflt, hA, hB, hprk⟩ := hw
  have hp : w.bay.state ≠ .empty → w.bay.present = true := fun hn =>
    hpresent.trans (Bay.present_of_allowed hx (hstate ▸ hn))
  have hf : w.bay.state ∉ [.empty, .idle, .released, .retracting, .faulted] → w.bay.fltOn = false := fun hn =>
    hflt.trans (Bay.fltOn_of_allowed hx (hstate ▸ hn))
  have hmerged : w.bay.merged = x.merged := by simp only [Bay.merged, hA, hB]
  unfold ejectorOpened
  split
  next hst => exact allowed_idleTest c (hp (by simp [hst])) hst
  next hst => exact allowed_toIdle c (hp (by simp [hst]))
  next hst => exact allowed_toSpinningDown c _ (hp (by simp [hst])) (hf (by simp [hst]))
  next hst =>
    exact allowed_spunTest (hp (by simp [hst])) (hf (by simp [hst]))
      (hprk.trans (Bay.spun_of_allowed hx (hstate ▸ hst)).2) hst
  next hst =>
    split
    exacts [allowed_toRetracting c _ (hp (by simp [hst])), allowed_toUnloading (hp (by simp [hst])) (hf (by simp [hst]))]
  next hst => exact allowed_toUnloading (hp (by simp [hst])) (hf (by simp [hst]))
  next hst => exact allowed_toRetracting c _ (hp (by simp [hst]))
  next hst => exact Bay.allowed_of_free (hp (by simp [hst])) (.inr ⟨by simp [hst], hf (by simp [hst])⟩)
  next hst =>
    have hm := Bay.merged_stop_of_allowed hx (.inl (hstate ▸ hst))
    have hpresent' : w.bay.present = false := by
      rw [hpresent, ← Bool.not_eq_true, Bay.present_iff_of_allowed hx]
      simp [← hstate, hst]
    simp [Bay.stateAllowed, hst, hmerged, hm, hpresent']
  next hst => exact Bay.allowed_of_free (hp (by simp [hst])) (.inl (by simp [hst]))
  next hst => exact Bay.allowed_of_free (hp (by simp [hst])) (.inl (by simp [hst]))
  next hst =>
    exact Bay.allowed_of_released (hp (by simp [hst])) hst
      (hmerged.trans (Bay.merged_stop_of_allowed hx (.inr (hstate ▸ hst))))

/-- With the ejector closed every state but IDLE, RELEASED and SPUN asks less. -/
theorem allowed_of_closed {m : Motion} {x y : Bay} (hx : x.stateAllowed m = true)
    (hy : (y.present, y.state, y.fltOn, y.demandA, y.demandB, y.prkOn, y.ejectorOpen) =
      (x.present, x.state, x.fltOn, x.demandA, x.demandB, x.prkOn, false)) (hs : y.state ≠ .idle) :
    y.stateAllowed m = true := by
  simp only [Prod.mk.injEq] at hy
  obtain ⟨hpresent, hstate, hflt, hA, hB, hprk, he⟩ := hy
  unfold Bay.stateAllowed Bay.merged at hx ⊢
  rw [hstate] at hs
  rw [hpresent, hstate, hflt, hA, hB, hprk, he]
  cases hst : x.state <;> simp_all

theorem allowed_ejectorClosed {x : Bay} (hx : x.stateAllowed c.motion = true)
    (hw : (w.bay.present, w.bay.state, w.bay.fltOn, w.bay.demandA, w.bay.demandB, w.bay.prkOn, w.bay.ejectorOpen) =
      (x.present, x.state, x.fltOn, x.demandA, x.demandB, x.prkOn, false)) :
    (w.ejectorClosed c).bay.stateAllowed c.motion = true := by
  have hstay := allowed_of_closed hx hw
  simp only [Prod.mk.injEq] at hw
  obtain ⟨hpresent, hstate, -⟩ := hw
  unfold ejectorClosed
  split
  next hst => exact allowed_idleTest c (hpresent.trans (Bay.present_of_allowed hx (by simp [← hstate, hst]))) hst
  next hst => exact allowed_releasedTest c (hpresent.trans (Bay.present_of_allowed hx (by simp [← hstate, hst]))) hst
  next hst =>
    have hy := hstay (by simp [hst])
    exact allowed_spunTest (Bay.present_of_allowed hy (by simp [hst])) (Bay.fltOn_of_allowed hy (by simp [hst]))
      (Bay.spun_of_allowed hy hst).2 hst
  next hidle _ _ => exact hstay hidle

/-- The filtered FLT level asserted: the states that forbid it are left (R49). -/
theorem allowed_fltAsserted {x : Bay} (hx : x.stateAllowed c.motion = true) (hon : w.bay.fltOn = true)
    (hw : (w.bay.present, w.bay.state, w.bay.demandA, w.bay.demandB, w.bay.flagA, w.bay.flagB, w.bay.ejectorOpen) =
      (x.present, x.state, x.demandA, x.demandB, x.flagA, x.flagB, x.ejectorOpen)) :
    (w.fltAsserted c).bay.stateAllowed c.motion = true := by
  simp only [Prod.mk.injEq] at hw
  obtain ⟨hpresent, hstate, hA, hB, hflagA, hflagB, he⟩ := hw
  have hp : w.bay.state ≠ .empty → w.bay.present = true := fun hn =>
    hpresent.trans (Bay.present_of_allowed hx (hstate ▸ hn))
  have hstay : x.state ∈ [.empty, .idle] → w.bay.stateAllowed c.motion = true := fun hs => by
    simp only [List.mem_cons, List.not_mem_nil, or_false] at hs
    unfold Bay.stateAllowed Bay.merged at hx ⊢
    rw [hpresent, hstate, hA, hB, hflagA, hflagB, he, hon]
    by_cases hm : x.demandA.larger x.demandB = .stop <;> obtain hs | hs := hs <;> simp_all
  unfold fltAsserted
  split
  iterate 5 next hst => exact allowed_toFaulted c _ _ (hp (by simp [hst]))
  iterate 3 next hst => exact allowed_toRetracting c _ (hp (by simp [hst]))
  iterate 2 next hst => exact hstay (by simp [← hstate, hst])
  all_goals next hst => exact Bay.allowed_of_free (hp (by simp [hst])) (.inl (by simp [hst]))

/-- With the filtered FLT level deasserted every state but IDLE asks less. -/
theorem allowed_of_fltOff {m : Motion} {x y : Bay} (hx : x.stateAllowed m = true)
    (hy : (y.present, y.state, y.fltOn, y.demandA, y.demandB, y.prkOn, y.ejectorOpen) =
      (x.present, x.state, false, x.demandA, x.demandB, x.prkOn, x.ejectorOpen)) (hs : y.state ≠ .idle) :
    y.stateAllowed m = true := by
  simp only [Prod.mk.injEq] at hy
  obtain ⟨hpresent, hstate, hflt, hA, hB, hprk, he⟩ := hy
  unfold Bay.stateAllowed Bay.merged at hx ⊢
  rw [hstate] at hs
  rw [hpresent, hstate, hflt, hA, hB, hprk, he]
  cases hst : x.state <;> simp_all

/-- Every state but SPUN asks nothing of the filtered PRK level. -/
theorem allowed_of_prk {m : Motion} {x y : Bay} (hx : x.stateAllowed m = true)
    (hy : (y.present, y.state, y.fltOn, y.demandA, y.demandB, y.ejectorOpen, y.flagA, y.flagB) =
      (x.present, x.state, x.fltOn, x.demandA, x.demandB, x.ejectorOpen, x.flagA, x.flagB))
    (hs : y.prkOn = true ∨ y.state ≠ .spun) : y.stateAllowed m = true := by
  simp only [Prod.mk.injEq] at hy
  obtain ⟨hpresent, hstate, hflt, hA, hB, he, hflagA, hflagB⟩ := hy
  unfold Bay.stateAllowed Bay.merged at hx ⊢
  rw [hstate] at hs
  rw [hpresent, hstate, hflt, hA, hB, he, hflagA, hflagB]
  cases hst : x.state <;> simp_all

theorem allowed_watchParked (hx : w.bay.stateAllowed c.motion = true) (hst : w.bay.state = .spinningDown) :
    (w.watchParked c).bay.stateAllowed c.motion = true := by
  have hp := Bay.present_of_allowed hx (by simp [hst])
  unfold watchParked
  dsimp only
  split
  · exact allowed_toIdle c hp
  · split
    exacts [allowed_toFaulted c _ _ hp, Bay.stateAllowed_congr hx rfl]

theorem allowed_prkAsserted (hx : w.bay.stateAllowed c.motion = true) (hk : w.bay.prkOn = true) :
    (w.prkAsserted c).bay.stateAllowed c.motion = true := by
  have hp : w.bay.state ≠ .empty → w.bay.present = true := Bay.present_of_allowed hx
  unfold prkAsserted
  split
  next hst =>
    split
    exacts [allowed_watchParked hx hst, hx]
  next hst =>
    split
    exacts [allowed_toSpun _ (hp (by simp [hst])) (.inr hk), hx]
  next hst => exact allowed_toSpun _ (hp (by simp [hst])) (.inr hk)
  next hst => exact allowed_toSpun _ (hp (by simp [hst])) (.inr hk)
  next hst =>
    split
    exacts [hx, allowed_retractParked (hp (by simp [hst])) hk]
  all_goals exact hx

theorem allowed_prkDropped {x : Bay} (hx : x.stateAllowed c.motion = true)
    (hw : (w.bay.present, w.bay.state, w.bay.fltOn, w.bay.demandA, w.bay.demandB, w.bay.ejectorOpen, w.bay.flagA,
        w.bay.flagB) =
      (x.present, x.state, x.fltOn, x.demandA, x.demandB, x.ejectorOpen, x.flagA, x.flagB)) :
    (w.prkDropped c).bay.stateAllowed c.motion = true := by
  have hstay : w.bay.state ≠ .spun → w.bay.stateAllowed c.motion = true := fun hs => allowed_of_prk hx hw (.inr hs)
  simp only [Prod.mk.injEq] at hw
  obtain ⟨hpresent, hstate, -⟩ := hw
  unfold prkDropped
  split
  next hst => exact allowed_toRetracting c _ (hpresent.trans (Bay.present_of_allowed hx (by simp [← hstate, hst])))
  next hst =>
    have hy := hstay (by simp [hst])
    split
    exacts [allowed_startSettle (mayBear_of_allowed hy (.inl hst)) hst, hy]
  next hspun _ => exact hstay hspun

theorem allowed_speedLost (hx : w.bay.stateAllowed c.motion = true) :
    (w.speedLost c).bay.stateAllowed c.motion = true := by
  have hp : w.bay.state ≠ .empty → w.bay.present = true := Bay.present_of_allowed hx
  unfold speedLost
  split
  next hst => exact allowed_toFaulted c _ _ (hp (by simp [hst]))
  iterate 3 next hst => exact allowed_toRetracting c _ (hp (by simp [hst]))
  exact hx

theorem allowed_inState {act : Work → Work} (st : BayState) (hx : w.bay.stateAllowed c.motion = true)
    (hact : w.bay.state = st → (act w).bay.stateAllowed c.motion = true) :
    (w.inState st act).bay.stateAllowed c.motion = true := by
  unfold inState
  split
  exacts [hact ‹_›, hx]

theorem allowed_pulse {x : Bay} (hx : x.stateAllowed c.motion = true) :
    (Work.pulse c ⟨x, []⟩).bay.stateAllowed c.motion = true := by
  unfold Work.pulse
  dsimp only
  split
  · exact Bay.stateAllowed_congr hx rfl
  next hne =>
    split
    · exact Bay.stateAllowed_congr hx rfl
    split
    · exact Bay.stateAllowed_congr hx rfl
    unfold Work.periodMeasured
    dsimp only
    split
    · split
      · split
        exacts [allowed_toSpun _ (Bay.present_of_allowed hx hne) (.inl rfl), Bay.stateAllowed_congr hx rfl]
      · split
        exacts [allowed_speedLost (Bay.stateAllowed_congr hx rfl), Bay.stateAllowed_congr hx rfl]
    · exact Bay.stateAllowed_congr hx rfl

end Work

/-- Every response leads to a state that is allowed, where a grant finds its bay QUEUED under a motion state that
grants, and CLEAR FAULT finds it FAULTED with FLT deasserted. -/
theorem Act.run_allowed (a : Act) (c : Ctx) {x : Bay} (hx : x.stateAllowed c.motion = true)
    (hcleared : a = .faultCleared → x.state = .faulted ∧ x.fltOn = false)
    (hgranted : ∀ sn, a = .granted sn → x.state = .queued ∧ c.motion ≠ .transit) :
    (a.run c ⟨x, []⟩).bay.stateAllowed c.motion = true := by
  have hpresent : x.state ≠ .empty → x.present = true := Bay.present_of_allowed hx
  cases a with
  | writeDemand p level =>
    dsimp only [Act.run, Work.writeDemand]
    split
    next hp =>
      have hne : x.state ≠ .empty := (Bay.present_iff_of_allowed hx).mp hp
      split
      · exact Work.allowed_demandWritten hx hne (by simp)
      · exact Work.allowed_demandWritten hx hne (by simp)
    next => exact hx
  | askRelease p =>
    dsimp only [Act.run, Work.askRelease]
    split
    next => exact hx
    next hne => exact Work.allowed_demandWritten hx hne (by simp)
  | restartFlag p =>
    dsimp only [Act.run, Work.restartFlag]
    split
    next hst =>
      have hst : x.state = .released := by simpa using hst
      exact Work.allowed_releasedTest c (by simpa using hpresent (by simp [hst])) (by simpa using hst)
    next => exact Bay.allowed_of_flagClear hx c p
  | faultCleared =>
    obtain ⟨hst, hf⟩ := hcleared rfl
    have hp := hpresent (by simp [hst])
    dsimp only [Act.run, Work.faultCleared]
    split
    exacts [Work.allowed_toRetracting c _ hp, Work.allowed_toSpinningDown c _ hp hf]
  | granted sn =>
    obtain ⟨hst, hmotion⟩ := hgranted sn rfl
    obtain ⟨hm, he⟩ := Bay.queued_of_allowed hx hst
    have hp := hpresent (by simp [hst])
    have hf := Bay.fltOn_of_allowed hx (by simp [hst])
    refine Bay.allowed_of_spinningUp ?_ ?_ (by simp [Act.run, Work.granted]) ?_ ?_ hmotion <;> simpa [Act.run, Work.granted, Bay.merged]
  | presence =>
    obtain ⟨-, e⟩ | hr | ⟨-, hp, ⟨hst, -, e⟩ | ⟨hst, -, e⟩ | ⟨hst, -⟩⟩ := Act.run_presence_cases c x
    · rw [e]; exact Bay.stateAllowed_congr hx rfl
    · rw [Act.run_removes hr]; simp [Work.toEmpty, Bay.stateAllowed, Bay.merged, Demand.larger]
    · have hm := Bay.merged_stop_of_allowed hx (.inl hst)
      rw [e]; exact Work.allowed_toReleased c rfl hm
    · rw [e]; exact Work.allowed_toIdle c rfl
    · exact absurd (hpresent hst) (by simp [hp])
  | ejector =>
    dsimp only [Act.run, Work.ejectorSettled]
    split
    · exact Bay.stateAllowed_congr hx rfl
    · split
      next => exact Work.allowed_ejectorOpened hx (by simp)
      next hclosed => exact Work.allowed_ejectorClosed hx (by simpa using hclosed)
  | flt =>
    dsimp only [Act.run, Work.fltFiltered]
    split
    · exact Bay.stateAllowed_congr hx rfl
    · split
      next hon => exact Work.allowed_fltAsserted hx hon rfl
      next hoff =>
        have hoff : x.flt = false := by simpa using hoff
        split
        next hst =>
          have hst : x.state = .idle := hst
          exact Work.allowed_idleTest c (hpresent (by simp [hst])) hst
        next hst => exact Work.allowed_of_fltOff hx (by simp [hoff]) hst
  | prk =>
    dsimp only [Act.run, Work.prkFiltered]
    split
    · exact Bay.stateAllowed_congr hx rfl
    · split
      next hon => exact Work.allowed_prkAsserted (Work.allowed_of_prk hx rfl (.inl hon)) hon
      next => exact Work.allowed_prkDropped hx rfl
  | pulse => exact Work.allowed_pulse hx
  | absence =>
    dsimp only [Act.run, Work.absence]
    split
    exacts [Work.allowed_speedLost (Bay.stateAllowed_congr hx rfl), Bay.stateAllowed_congr hx rfl]
  | quiet =>
    dsimp only [Act.run, Work.quietRanOut, Work.stopped]
    split
    · split
      next hst =>
        have hst : x.state = .spinningDown := hst.1
        exact Work.allowed_toIdle c (hpresent (by simp [hst]))
      next => exact Bay.stateAllowed_congr hx rfl
    · exact Bay.stateAllowed_congr hx rfl
  | spinup =>
    refine Work.allowed_inState _ hx fun hst => ?_
    have hst : x.state = .spinningUp := hst
    have hp := hpresent (by simp [hst])
    dsimp only [Work.spinupTimedOut]
    split
    exacts [Work.allowed_toSpinningDown c _ hp (Bay.fltOn_of_allowed hx (by simp [hst])), Work.allowed_toFaulted c _ _ hp]
  | spindown =>
    refine Work.allowed_inState _ hx fun hst => ?_
    have hst : x.state = .spinningDown := hst
    dsimp only [Work.spindownTimedOut]
    split
    exacts [Bay.stateAllowed_congr hx rfl, Work.allowed_toFaulted c _ _ (hpresent (by simp [hst]))]
  | watch =>
    refine Work.allowed_inState _ hx fun hst => ?_
    have hst : x.state = .spinningDown := hst
    exact Work.allowed_toFaulted c _ _ (hpresent (by simp [hst]))
  | dwell =>
    refine Work.allowed_inState _ hx fun hst => ?_
    have hst : x.state = .spun := hst
    dsimp only [Work.dwellRanOut]
    split
    next hl =>
      exact Work.allowed_toLoading (Work.mayBear_of_mayLoad (hpresent (by simp [hst]))
        (Bay.fltOn_of_allowed hx (by simp [hst])) hl)
    next => exact Bay.stateAllowed_congr hx rfl
  | load => exact Work.allowed_inState _ hx fun _ => Bay.stateAllowed_congr hx rfl
  | settle =>
    exact Work.allowed_inState _ hx fun hst => Work.allowed_toReady (Work.mayBear_of_allowed hx (.inl hst))
  | withdraw =>
    refine Work.allowed_inState _ hx fun hst => ?_
    have hst : x.state = .loading := hst
    have hp := hpresent (by simp [hst])
    dsimp only [Work.withdrawRanOut]
    split
    exacts [Work.allowed_toFaulted c _ _ hp, Work.allowed_toRetracting c _ hp]
  | unload =>
    refine Work.allowed_inState _ hx fun hst => ?_
    have hst : x.state = .unloading := hst
    exact Work.allowed_toRetracting c _ (hpresent (by simp [hst]))
  | retractPulse =>
    refine Work.allowed_inState _ hx fun hst => ?_
    have hst : x.state = .retracting := hst
    dsimp only [Work.pulseEnded]
    split
    next hk => exact Work.allowed_retractParked (hpresent (by simp [hst])) hk
    next => exact Bay.stateAllowed_congr hx rfl
  | retract =>
    refine Work.allowed_inState _ hx fun hst => ?_
    have hst : x.state = .retracting := hst
    dsimp only [Work.retractRanOut]
    split
    next hk => exact Work.allowed_retractParked (hpresent (by simp [hst])) hk
    next => exact Work.allowed_toFaulted c _ _ (hpresent (by simp [hst]))

theorem Bay.Touched.stateAllowed {c : Ctx} {m : Motion} {x y : Bay} (h : x.Touched c y)
    (hx : x.stateAllowed m = true) : y.stateAllowed m = true := by
  cases h with
  | raw => exact Bay.stateAllowed_congr hx rfl
  | toggle => exact Bay.stateAllowed_congr hx rfl
  | clearFlag p => exact Bay.allowed_of_flagClear hx c p

theorem Bay.afterReset_stateAllowed (x : Bay) : x.afterReset.stateAllowed .blind = true := by
  unfold Bay.afterReset
  cases x.prs <;> cases x.flt <;> simp [Bay.reset, Bay.stateAllowed, Bay.merged, Demand.larger]

end Sys2Proof.Machine

namespace Sys2Proof
open Machine

/-- Settles O12: every entry of the sequencer is made where its state is allowed, and no response leaves a bay in a
state that it has just come to forbid. -/
theorem stepKeepsStatesAllowed : Obligations.StepKeepsStatesAllowed := by
  intro s t ⟨hq, hs⟩ h
  refine ⟨?_, step_keeps_bays (P := fun m x => x.stateAllowed m = true) (fun _ _ _ hx ht => ht.stateAllowed hx) ?_
    (fun _ _ _ hx => Work.allowed_motionChanged hx) Bay.afterReset_stateAllowed hs h⟩
  · obtain rfl | ⟨i, s', hs', hexec⟩ := step_cases h
    · exact hq
    · exact exec_keeps_queueMatches hexec (State.queueMatches_of_eq hq hs'.bays hs'.queue)
  intro i s' u b a hbeside hmoves hfits hx
  have hu : u.queueMatches := hmoves.queueMatches (State.queueMatches_of_eq hq hbeside.bays hbeside.queue)
  refine a.run_allowed u.ctx hx ?_ ?_
  · rintro rfl
    exact hfits
  · rintro sn rfl
    refine ⟨(hu.2 b).mp hfits.1, fun htransit => ?_⟩
    have hgrants : u.motion.state.grants = true := hfits.2.1
    rw [show u.motion.state = .transit from htransit] at hgrants
    cases hgrants

end Sys2Proof
end

section
/-!
What the end of requests leaves of a bay, and what may write its demand columns and its snapshot (R5, R14).
-/

namespace Sys2Proof.Machine

/-! ### What the end of requests leaves of a bay -/

/-- A bay without its flags and its LED, which an ended RELEASE BAY may clear (R11, R165). -/
def Bay.sansFlags (x : Bay) : Bay :=
  { x with flagA := false, flagB := false, led := false, ledPattern := .off, ledTimer := none }

theorem Bay.sansFlags_setFlag_relight (x : Bay) (p : Port) (f : Bool) (c : Ctx) :
    ((x.setFlag p f).relight c).sansFlags = x.sansFlags := by
  unfold Bay.relight
  cases p <;> split <;> rfl

theorem State.clearFlagAfter_sansFlags (p : Port) (s : State) (r : Request) (e : Ending) (b : BayNo) :
    ((s.clearFlagAfter p r e).bay b).sansFlags = (s.bay b).sansFlags := by
  obtain h | ⟨c, -, -, -, h⟩ := s.clearFlagAfter_spec p r e <;> rw [h]
  rw [State.bay_setBay_eq]
  split
  next hb => rw [Bay.sansFlags_setFlag_relight, hb]
  next => rfl

@[simp] theorem State.endRequests_sansFlags (p : Port) (ends : Request → Option Ending) (s : State) (b : BayNo) :
    ((s.endRequests p ends).bay b).sansFlags = (s.bay b).sansFlags := by
  rw [State.endRequests_eq]
  generalize ((s.port p).outstanding.filter fun r => (ends r).isSome) = rs
  have hstart : ((s.closeRequests p ends).bay b).sansFlags = (s.bay b).sansFlags := by
    simp [State.closeRequests]
  generalize s.closeRequests p ends = u at hstart
  induction rs generalizing u with
  | nil => exact hstart
  | cons r rs ih =>
    refine ih _ (Eq.trans ?_ hstart)
    obtain he | ⟨e, -, he⟩ := u.clearFlagFor_cases p ends r <;> rw [he]
    exact State.clearFlagAfter_sansFlags p u r e b

@[simp] theorem Event.finish_sansFlags (e : Event) (b : BayNo) : (e.finish.bay b).sansFlags = (e.st.bay b).sansFlags := by
  unfold Event.finish
  rw [State.endRequests_sansFlags, State.endRequests_sansFlags]

theorem State.bayEvent_sansFlags (s : State) (b c : BayNo) (f : Ctx → Work → Work) :
    ((s.bayEvent b f).bay c).sansFlags =
      if c = b then (f s.ctx ⟨s.bay b, []⟩).bay.sansFlags else (s.bay c).sansFlags := by
  unfold State.bayEvent
  rw [Event.finish_sansFlags, State.onBay_bay]
  split <;> rfl

section
variable {x y : Bay} (h : x.sansFlags = y.sansFlags)
include h

theorem Bay.state_of_sansFlags : x.state = y.state := by
  have hs := congrArg Bay.state h
  exact hs

theorem Bay.snapshot_of_sansFlags : x.snapshot = y.snapshot := by
  have hs := congrArg Bay.snapshot h
  exact hs

theorem Bay.demand_of_sansFlags (p : Port) : x.demand p = y.demand p := by
  have hs := congrArg (Bay.demand · p) h
  cases p <;> exact hs

end

theorem State.Alike.bay {s t : State} (h : s.Alike t) (b : BayNo) : t.bay b = s.bay b := h.toBeside.bay b

/-! ### What moves write -/

theorem bayOf_eq_some {n : Byte} {b : BayNo} (h : bayOf n = some b) : n = BitVec.ofNat 8 b.val := by
  unfold bayOf at h
  split at h
  next hn =>
    obtain rfl := Option.some.inj h
    simp
  next => cases h

section
variable {i : Instr} {b : BayNo}

theorem eq_of_brings_presence (h : brings i b .presence) : i = .prsSettleExpiry b := by
  unfold brings at h
  split at h <;> simp_all

theorem eq_of_brings_granted {sn : Snapshot} (h : brings i b (.granted sn)) : ∃ dt, i = .grantEvaluation dt := by
  unfold brings at h
  split at h <;> simp_all

theorem eq_of_brings_writeDemand {p : Port} {level : Demand} (h : brings i b (.writeDemand p level)) :
    ∃ dt mask l, mask.getLsbD b.val = true ∧ i = .setDemand dt p mask l := by
  unfold brings at h
  split at h <;> simp_all

theorem eq_of_brings_askRelease {p : Port} (h : brings i b (.askRelease p)) :
    ∃ dt tag timeout, i = .releaseBay dt p tag (BitVec.ofNat 8 b.val) timeout := by
  unfold brings at h
  split at h
  case h_2 dt q tag bay timeout =>
    obtain ⟨hbay, hq⟩ := h
    cases hq
    exact ⟨dt, tag, timeout, by rw [bayOf_eq_some hbay]⟩
  all_goals simp_all

end

/-- What the sequencer's responses write of demand and snapshot, a removal and a grant apart: a port's own column at its
own commands (R5, R14). -/
theorem Act.run_writes (a : Act) (c : Ctx) (x : Bay) (hr : ¬a.removes x) (hgrant : ∀ sn, a ≠ .granted sn) :
    (∀ p, (a.run c ⟨x, []⟩).bay.demand p = x.demand p ∨ (∃ level, a = .writeDemand p level) ∨ a = .askRelease p) ∧
      (a.run c ⟨x, []⟩).bay.snapshot = x.snapshot ∧
      (x.state ≠ .empty → (a.run c ⟨x, []⟩).bay.state ≠ .empty) ∧
      (x.state ≠ .spinningUp → (a.run c ⟨x, []⟩).bay.state ≠ .spinningUp) := by
  obtain ⟨v, hv, hg⟩ := a.opens c x hr hgrant
  refine ⟨fun p => (hv.demand p).imp_left (hg.inputs.demand p).trans, hg.inputs.snapshot.trans hv.snapshot, ?_, ?_⟩
  · rw [← hv.state]; exact hg.state_ne_empty
  · rw [← hv.state]; exact fun hne hs => hne (hg.state_spinningUp hs)

/-- What an event but part reset, a settling of PRS and a grant evaluation writes of demands, and that it takes no
snapshot and leads neither to EMPTY nor to SPINNING_UP. -/
theorem State.Moves.writes {i : Instr} {s t : State} (h : s.Moves i t) (hprs : ∀ b, i ≠ .prsSettleExpiry b)
    (hgrant : ∀ dt, i ≠ .grantEvaluation dt) (b : BayNo) :
    (∀ p, (t.bay b).demand p = (s.bay b).demand p ∨
      (∃ dt mask level, mask.getLsbD b.val = true ∧ i = .setDemand dt p mask level) ∨
      ∃ dt tag timeout, i = .releaseBay dt p tag (BitVec.ofNat 8 b.val) timeout) ∧
    (t.bay b).snapshot = (s.bay b).snapshot ∧
    ((s.bay b).state ≠ .empty → (t.bay b).state ≠ .empty) ∧
    ((s.bay b).state ≠ .spinningUp → (t.bay b).state ≠ .spinningUp) := by
  induction h with
  | start => exact ⟨fun p => .inl rfl, rfl, id, id⟩
  | beside _ hb ih => rw [hb.bay]; exact ih
  | @touch u c x _ hx ih =>
    rw [State.bay_setBay_eq]
    split
    next hc =>
      subst hc
      rw [hx.snapshot, hx.state]
      simpa only [hx.demand] using ih
    next => exact ih
  | @act u c a _ hi _ ih =>
    rw [State.onBay_bay]
    split
    next hc =>
      subst hc
      obtain ⟨hd, hs, he, hup⟩ := ih
      have hr : ¬a.removes (u.bay b) := by
        rintro ⟨rfl, -⟩
        exact hprs b (eq_of_brings_presence hi)
      have hg : ∀ sn, a ≠ .granted sn := by
        rintro sn rfl
        obtain ⟨dt, hdt⟩ := eq_of_brings_granted hi
        exact hgrant dt hdt
      obtain ⟨hd', hs', he', hup'⟩ := a.run_writes u.ctx (u.bay b) hr hg
      refine ⟨fun p => ?_, hs'.trans hs, fun h => he' (he h), fun h => hup' (hup h)⟩
      obtain hp | ⟨level, rfl⟩ | rfl := hd' p
      exacts [(hd p).imp_left hp.trans, .inr (.inl (eq_of_brings_writeDemand hi)),
        .inr (.inr (eq_of_brings_askRelease hi))]
    next => exact ih
  | @motion u m _ ih =>
    rw [State.setMotion_bay]
    split
    · exact ih
    · have hg : Work.Goes ⟨u.now, m.state⟩ ⟨u.bay b, []⟩ (Work.motionChanged ⟨u.now, m.state⟩ ⟨u.bay b, []⟩) :=
        Work.Goes.stay.motionChanged
      obtain ⟨hd, hs, he, hup⟩ := ih
      exact ⟨fun p => (hd p).imp_left (hg.inputs.demand p).trans, hg.inputs.snapshot.trans hs,
        fun h => hg.state_ne_empty (he h), fun h hs => hup h (hg.state_spinningUp hs)⟩

/-! ### The working copies (R191, R192) -/

/-- The five working copies. -/
def State.working (s : State) : Four (Working Profile) × Working CaseSettings :=
  (s.store.workingProfiles, s.store.workingCase)

theorem State.working_of_store {s t : State} (h : t.store = s.store) : t.working = s.working := by
  simp only [State.working, h]

section
variable {s : State} (p : Port)

theorem State.takeCommand_working {act : State → State} (h : ∀ u, (act u).working = u.working) :
    (s.takeCommand p act).working = s.working := by
  by_cases hs : s.store.engine = .startup
  · rw [State.takeCommand_starting p act s hs]
    exact State.working_of_store (s.setPort_store p _)
  · rw [State.takeCommand_started p act s hs]
    exact h s

@[simp] theorem State.setPort_working (u : PortUnit) : (s.setPort p u).working = s.working :=
  State.working_of_store (s.setPort_store p u)

@[simp] theorem State.answer_working (params : Nat) (code : AnswerCode) (data : List Byte) (clear : PendingClear) :
    (s.answer p params code data clear).working = s.working :=
  s.setPort_working p _

@[simp] theorem State.reply_working (params : Nat) (code : AnswerCode) : (s.reply p params code).working = s.working :=
  s.setPort_working p _

@[simp] theorem State.endRequests_working (ends : Request → Option Ending) :
    (s.endRequests p ends).working = s.working := by
  have h := s.endRequests_frame p ends
  simp only [Prod.mk.injEq] at h
  obtain ⟨-, -, -, -, -, hstore, -⟩ := h
  exact State.working_of_store hstore

@[simp] theorem State.endAccepted_working (tag : Byte) (e : Option Ending) :
    (s.endAccepted p tag e).working = s.working := by
  cases e
  exacts [rfl, s.endRequests_working p _]

@[simp] theorem State.accept_working (tag : Byte) (kind : RequestKind) (due : Option Micros) :
    (s.accept p tag kind due).working = s.working :=
  s.setPort_working p _

end

@[simp] theorem Event.finish_working (e : Event) : e.finish.working = e.st.working := by
  simp [Event.finish]

@[simp] theorem Event.onBays_working (bs : List BayNo) (f : Ctx → Work → Work) (e : Event) :
    (e.onBays bs f).st.working = e.st.working := by
  have h := e.onBays_frame bs f
  simp only [Prod.mk.injEq] at h
  obtain ⟨-, -, -, -, hstore, -⟩ := h
  exact State.working_of_store hstore

@[simp] theorem State.bayEvent_working (b : BayNo) (act : Ctx → Work → Work) (s : State) :
    (s.bayEvent b act).working = s.working := by
  have h := s.bayEvent_frame b act
  simp only [Prod.mk.injEq] at h
  obtain ⟨-, -, -, -, hstore, -⟩ := h
  exact State.working_of_store hstore

theorem State.bayExpiry_working (b : BayNo) (timer : Bay → Option Micros) (act : Ctx → Work → Work) (s : State) :
    (s.bayExpiry b timer act).working = s.working := by
  cases h : timer (s.bay b) with
  | none => rw [State.bayExpiry_stopped _ _ _ _ h]
  | some due => rw [State.bayExpiry_running _ _ _ _ _ h, State.bayEvent_working]; rfl

theorem State.requestExpiry_working (p : Port) (r : Request) (b : BayNo) (s : State) :
    (s.requestExpiry p r b).working = s.working := by
  unfold State.requestExpiry
  split
  exacts [rfl, State.endRequests_working p _]

theorem Event.setMotion_working (m : MotionRecord) (e : Event) : (e.setMotion m).st.working = e.st.working := by
  by_cases h : m.state = e.st.motion.state
  · rw [Event.setMotion_same h]; rfl
  · rw [Event.setMotion_changed h, Event.onBays_working]; rfl

theorem Event.Hears.working {e e' : Event} (h : e.Hears e') : e'.st.working = e.st.working := by
  induction h with
  | stay => rfl
  | receiver f _ ih => exact ih
  | motion _ _ ih => rw [Event.setMotion_working]; exact ih

theorem State.Listens.working {s t : State} (h : s.Listens t) : t.working = s.working := by
  induction h with
  | stay => rfl
  | receiver f _ ih => exact ih
  | hears _ he ih => rw [Event.finish_working, he.working]; exact ih

theorem State.evaluate_working (s : State) : s.evaluate.finish.working = s.working := by
  obtain ⟨-, e⟩ | ⟨b, -, e⟩ := s.evaluate_finish <;> rw [e]
  · rfl
  · rw [State.bayEvent_working]; rfl

theorem Store.startWrite_working (t : WriteTarget) (lock : Bool) (owner : Port) (due : Micros) (st : Store) :
    ((st.startWrite t lock owner due).workingProfiles, (st.startWrite t lock owner due).workingCase) =
      (st.workingProfiles, st.workingCase) := by
  cases t <;> rfl

theorem State.endWrite_working (target : WriteTarget) (lock : Bool) (owner : Port) (agrees : Bool) (s : State) :
    (s.endWrite target lock owner agrees).working = s.working := by
  unfold State.endWrite
  split <;> rw [State.endRequests_working] <;> cases target <;> rfl

section
variable {s t : State}

theorem exec_writeRecord_working {dt : Micros} {p : Port} {tag record lock : Byte} {contents : List Byte}
    (h : exec (.writeRecord dt p tag record lock contents) s = .next t) : t.working = s.working := by
  obtain rfl := Host.Outcome.next.inj h
  refine State.takeCommand_working p fun u => ?_
  split
  · simp
  split
  · rfl
  dsimp only
  split
  · simp
  split
  · simp
  split
  · simp
  · rw [State.reply_working]
    exact (Store.startWrite_working _ _ _ _ _).trans (State.accept_working p _ _ _)

theorem exec_reload_working {dt : Micros} {p : Port} {tag : Byte} (h : exec (.reload dt p tag) s = .next t) :
    t.working = s.working := by
  obtain rfl := Host.Outcome.next.inj h
  refine State.takeCommand_working p fun u => ?_
  split
  · simp
  split
  · simp
  · rw [State.reply_working]
    exact State.accept_working p _ _ _

/-- Every event but part reset and the completion of a load leaves the working copies (R14, R192). -/
theorem exec_working {i : Instr} (h : exec i s = .next t) (hreset : i ≠ .partReset)
    (hstart : ∀ dt, i ≠ .startupLoadComplete dt) (hreload : i ≠ .reloadEnd) : t.working = s.working := by
  have ht := fun {u : State} (hu : exec i s = .next u) => Host.Outcome.next.inj (h.symm.trans hu)
  have command : ∀ {dt : Micros} {p : Port} {act : State → State},
      t = (s.advance dt).takeCommand p act → (∀ u, (act u).working = u.working) → t.working = s.working := by
    rintro dt p act rfl hact
    exact State.takeCommand_working (s := s.advance dt) p hact
  have expiry : ∀ {b : BayNo} {timer : Bay → Option Micros} {act : Ctx → Work → Work},
      t = s.bayExpiry b timer act → t.working = s.working := by
    rintro b timer act rfl
    exact s.bayExpiry_working b timer act
  have listening : ∀ {dt : Micros} {line : List Bool},
      t = (if (s.advance dt).starting then s.advance dt else (s.advance dt).sampleLine line) →
        t.working = s.working := by
    rintro dt line rfl
    split
    exacts [rfl, ((s.advance dt).listens_sampleLine line).working]
  cases i with
  | writeRecord => exact exec_writeRecord_working h
  | reload => exact exec_reload_working h
  | setDemand => exact command (ht rfl) fun u => by simp
  | readBay => exact command (ht rfl) fun u => by split <;> simp
  | readCase => exact command (ht rfl) fun u => by simp
  | senseLines =>
    refine command (ht rfl) fun u => ?_
    split
    · simp
    · rw [State.answer_working]; rfl
  | takeCompletion => exact command (ht rfl) fun u => by split <;> simp
  | cancel =>
    refine command (ht rfl) fun u => ?_
    split
    · rw [State.reply_working]; exact State.endRequests_working _ _
    · simp
  | clearFault => exact command (ht rfl) fun u => by split <;> [simp; (split <;> [simp; (split <;> simp)])]
  | ringPeer => exact command (ht rfl) fun u => by simp
  | takeNotices => exact command (ht rfl) fun u => by simp
  | setNoticeMask => exact command (ht rfl) fun u => by simp
  | readShared => exact command (ht rfl) fun u => by split <;> simp
  | writeShared =>
    refine command (ht rfl) fun u => ?_
    split
    · simp
    · rw [State.reply_working]; rfl
  | readProfile => exact command (ht rfl) fun u => by split <;> simp
  | readStored => exact command (ht rfl) fun u => by split <;> [simp; (split <;> simp)]
  | portRestart => exact command (ht rfl) fun u => by simp
  | waitBay => exact command (ht rfl) fun u => by split <;> [simp; (split <;> simp)]
  | releaseBay => exact command (ht rfl) fun u => by split <;> [simp; (split <;> simp)]
  | unknownCommand => exact command (ht rfl) fun u => by simp
  | startingFrame => exact command (ht rfl) fun u => rfl
  | selectFall => rw [ht rfl]; exact State.setPort_working _ _
  | frameEnd => rw [ht rfl]; exact State.setPort_working _ _
  | partReset => exact absurd rfl hreset
  | startupLoadComplete dt => exact absurd rfl (hstart dt)
  | reloadEnd => exact absurd rfl hreload
  | srcSettleExpiry =>
    dsimp only [exec, execSrcSettleExpiry] at h
    split at h
    · obtain rfl := Host.Outcome.next.inj h; rfl
    · split at h <;> obtain rfl := Host.Outcome.next.inj h <;> rfl
  | keySettleExpiry =>
    dsimp only [exec, execKeySettleExpiry] at h
    split at h <;> obtain rfl := Host.Outcome.next.inj h <;> rfl
  | gapTimerExpiry =>
    dsimp only [exec, execGapTimerExpiry] at h
    split at h <;> obtain rfl := Host.Outcome.next.inj h <;> rfl
  | ledPatternToggle =>
    dsimp only [exec, execLedPatternToggle] at h
    split at h <;> obtain rfl := Host.Outcome.next.inj h <;> rfl
  | grantEvaluation dt =>
    obtain rfl := Host.Outcome.next.inj h
    split
    exacts [(s.advance dt).evaluate_working, rfl]
  | silenceTimerExpiry =>
    dsimp only [exec, execSilenceTimerExpiry] at h
    split at h <;> obtain rfl := Host.Outcome.next.inj h
    exacts [rfl, (s.advanceTo _).listens_silence.working]
  | waitBayTimeout =>
    dsimp only [exec, execWaitBayTimeout] at h
    split at h
    · obtain rfl := Host.Outcome.next.inj h; rfl
    · split at h <;> obtain rfl := Host.Outcome.next.inj h
      exacts [State.requestExpiry_working _ _ _ _, rfl]
  | releaseBayTimeout =>
    dsimp only [exec, execReleaseBayTimeout] at h
    split at h
    · obtain rfl := Host.Outcome.next.inj h; rfl
    · split at h <;> obtain rfl := Host.Outcome.next.inj h
      exacts [State.requestExpiry_working _ _ _ _, rfl]
  | writeEnd agrees =>
    dsimp only [exec, execWriteEnd] at h
    split at h <;> obtain rfl := Host.Outcome.next.inj h
    exacts [State.endWrite_working _ _ _ _ _, rfl]
  | idxPulse dt b => rw [ht rfl]; exact State.bayEvent_working _ _ _
  | prsLineChange | ejcLineChange | fltLineChange | prkLineChange | srcLineChange | keyLineChange => rw [ht rfl]; rfl
  | characterFinished | mrxFalseStart => exact listening (ht rfl)
  | _ => exact expiry (ht rfl)

end

end Sys2Proof.Machine
end

section
/-!
The demand columns and the settings change only where they may (R5, R14).
-/

namespace Sys2Proof.Machine

/-- A removal leaves STOP in both columns and no snapshot (R16). -/
theorem Act.run_removes_writes {a : Act} {x : Bay} (h : a.removes x) (c : Ctx) :
    (a.run c ⟨x, []⟩).bay.state = .empty ∧ (∀ p, (a.run c ⟨x, []⟩).bay.demand p = .stop) ∧
      (a.run c ⟨x, []⟩).bay.snapshot = none := by
  rw [Act.run_removes h]
  exact ⟨by simp, fun p => by cases p <;> simp [Work.toEmpty, Bay.demand], by simp [Work.toEmpty]⟩

/-- What one event writes of a bay's demands and snapshot, and whether it leads to EMPTY or SPINNING_UP: a removal, a
grant, or a port's own command (R5, R14, R16, R33). -/
def Writes (i : Instr) (b : BayNo) (sn : Snapshot) (x y : Bay) : Prop :=
  (i = .prsSettleExpiry b ∧ y.state = .empty ∧ (∀ p, y.demand p = .stop) ∧ y.snapshot = none) ∨
  ((∃ dt, i = .grantEvaluation dt) ∧ y.state = .spinningUp ∧ (∀ p, y.demand p = x.demand p) ∧ y.snapshot = some sn) ∨
  (∀ p, y.demand p = x.demand p ∨
    (∃ dt mask level, mask.getLsbD b.val = true ∧ i = .setDemand dt p mask level) ∨
    ∃ dt tag timeout, i = .releaseBay dt p tag (BitVec.ofNat 8 b.val) timeout) ∧
  y.snapshot = x.snapshot ∧ (x.state ≠ .empty → y.state ≠ .empty) ∧ (x.state ≠ .spinningUp → y.state ≠ .spinningUp)

theorem Writes.of_sansFlags {i : Instr} {b : BayNo} {sn : Snapshot} {x y z : Bay} (h : Writes i b sn x y)
    (hz : z.sansFlags = y.sansFlags) : Writes i b sn x z := by
  unfold Writes at h ⊢
  simpa only [Bay.state_of_sansFlags hz, Bay.snapshot_of_sansFlags hz, Bay.demand_of_sansFlags hz] using h

theorem Writes.same (i : Instr) (b : BayNo) (sn : Snapshot) (x : Bay) : Writes i b sn x x :=
  .inr (.inr ⟨fun _ => .inl rfl, rfl, id, id⟩)

/-- The settling of PRS removes its bay, or writes nothing. -/
theorem exec_prsSettleExpiry_writes {c : BayNo} {s t : State} (h : exec (.prsSettleExpiry c) s = .next t) (b : BayNo)
    (sn : Snapshot) : Writes (.prsSettleExpiry c) b sn (s.bay b) (t.bay b) := by
  have ht : t = s.bayExpiry c Act.presence.timer Act.presence.run := (Host.Outcome.next.inj h).symm
  cases htimer : Act.presence.timer (s.bay c) with
  | none => rw [ht, State.bayExpiry_stopped _ _ _ _ htimer]; exact .same _ _ _ _
  | some due =>
    rw [State.bayExpiry_running _ _ _ _ _ htimer] at ht
    subst ht
    have hz := State.bayEvent_sansFlags (s.advanceTo due) c b Act.presence.run
    rw [State.bay_advanceTo] at hz
    split at hz
    next hb =>
      subst hb
      refine Writes.of_sansFlags ?_ hz
      by_cases hr : Act.presence.removes (s.bay b)
      · exact .inl ⟨rfl, Act.run_removes_writes hr _⟩
      · obtain ⟨hd, hrest⟩ := Act.presence.run_writes (s.advanceTo due).ctx (s.bay b) hr (by simp)
        exact .inr (.inr ⟨fun p => .inl (by simpa using hd p), hrest⟩)
    next => exact (Writes.same _ _ _ _).of_sansFlags hz

/-- A grant evaluation grants its bay, or writes nothing. -/
theorem exec_grantEvaluation_writes {dt : Micros} {s t : State} (h : exec (.grantEvaluation dt) s = .next t)
    (b : BayNo) : Writes (.grantEvaluation dt) b (s.store.snapshotFor b) (s.bay b) (t.bay b) := by
  obtain rfl := Host.Outcome.next.inj h
  split
  · obtain ⟨-, e⟩ | ⟨c, -, e⟩ := (s.advance dt).evaluate_finish <;> rw [e]
    · exact .same _ _ _ _
    have hz := State.bayEvent_sansFlags
      ({ s.advance dt with arbiter := { (s.advance dt).arbiter with evalOwed := false } } : State).noteGrant c b
      (Work.granted ((s.advance dt).store.snapshotFor c))
    split at hz
    next hb =>
      subst hb
      refine Writes.of_sansFlags ?_ hz
      exact .inr (.inl ⟨⟨dt, rfl⟩, by simp, fun p => by simp; rfl, by simp⟩)
    next => exact (Writes.same _ _ _ _).of_sansFlags hz
  · exact .same _ _ _ _

theorem exec_writes {i : Instr} {s t : State} (h : exec i s = .next t) (hi : i ≠ .partReset) (b : BayNo) :
    Writes i b (s.store.snapshotFor b) (s.bay b) (t.bay b) := by
  by_cases hprs : ∃ c, i = .prsSettleExpiry c
  · obtain ⟨c, rfl⟩ := hprs
    exact exec_prsSettleExpiry_writes h b _
  by_cases hgrant : ∃ dt, i = .grantEvaluation dt
  · obtain ⟨dt, rfl⟩ := hgrant
    exact exec_grantEvaluation_writes h b
  · exact .inr (.inr ((exec_moves h hi).writes (not_exists.mp hprs) (not_exists.mp hgrant) b))

/-! ### The ports' own commands -/

theorem Work.writeDemand_demand (p : Port) (level : Demand) (c : Ctx) {x : Bay} (h : x.present = true) :
    (Work.writeDemand p level c ⟨x, []⟩).bay.demand p = level := by
  unfold Work.writeDemand
  rw [if_pos h]
  dsimp only
  split
  next hl =>
    rw [Work.Goes.inputs (Work.Goes.stay.demandWritten _) |>.demand p]
    simp [hl]
  next =>
    rw [Work.Goes.inputs (Work.Goes.stay.demandWritten _) |>.demand p]
    simp

theorem Work.askRelease_demand (p : Port) (c : Ctx) {x : Bay} (h : x.state ≠ .empty) :
    (Work.askRelease p c ⟨x, []⟩).bay.demand p = .stop := by
  unfold Work.askRelease
  rw [if_neg h]
  dsimp only
  rw [Work.Goes.inputs (Work.Goes.stay.demandWritten _) |>.demand p]
  simp

theorem mem_maskBays_single (b : BayNo) : (BitVec.ofNat 8 (2 ^ b.val)).getLsbD b.val = true := by
  revert b; decide

theorem PortUnit.refusesRequest_eq_none {u : PortUnit} {tag : Byte}
    (hslots : u.outstanding.length + u.completions.length < 8) (htag : ∀ r ∈ u.outstanding, r.tag ≠ tag) :
    u.refusesRequest tag = none := by
  have hfull : u.slotsFull = false := by
    simp only [PortUnit.slotsFull, PortUnit.slotsUsed]
    exact decide_eq_false (Nat.not_le.mpr hslots)
  have hin : u.tagInUse tag = false := by simpa [PortUnit.tagInUse] using htag
  simp [PortUnit.refusesRequest, hfull, hin]

@[simp] theorem State.endAccepted_sansFlags (p : Port) (tag : Byte) (e : Option Ending) (s : State) (b : BayNo) :
    ((s.endAccepted p tag e).bay b).sansFlags = (s.bay b).sansFlags := by
  cases e
  exacts [rfl, s.endRequests_sansFlags p _ b]

@[simp] theorem State.bay_reply (p : Port) (params : Nat) (code : AnswerCode) (s : State) (b : BayNo) :
    (s.reply p params code).bay b = s.bay b :=
  s.bay_setPort p _ b

section
variable {s : State} (dt : Micros) (p : Port) (hs : s.store.engine ≠ .startup)
include hs

/-- SET DEMAND on a part that has started (R6). -/
theorem exec_setDemand_started (mask level : Byte) :
    exec (.setDemand dt p mask level) s =
      .next ((((s.advance dt).event.onBays (maskBays mask) (Work.writeDemand p (levelOf level))).finish).reply p 2
        .accepted) :=
  congrArg Host.Outcome.next (State.takeCommand_started p _ (s.advance dt) hs)

/-- A RELEASE BAY that passes its checks (R7). -/
theorem exec_releaseBay_started (tag bay : Byte) (timeout : Half) {b : BayNo} (hb : bayOf bay = some b)
    (hr : (s.port p).refusesRequest tag = none) :
    exec (.releaseBay dt p tag bay timeout) s =
      let v := ((s.advance dt).accept p tag (.release b) (timeoutDue (s.now + dt) timeout)).bayEvent b (Work.askRelease p)
      .next ((v.endAccepted p tag (v.orExpireAtOnce b timeout (v.releaseAtAcceptance b))).reply p 4 .accepted) := by
  refine congrArg Host.Outcome.next ((State.takeCommand_started p _ (s.advance dt) hs).trans ?_)
  have hr' : ((s.advance dt).port p).refusesRequest tag = none := hr
  simp only [hb, hr']
  rfl

/-- Each bay of the mask acts on its write (R6). -/
theorem exec_setDemand_bay {mask level : Byte} {t : State} (h : exec (.setDemand dt p mask level) s = .next t)
    (b : BayNo) :
    (t.bay b).sansFlags =
      if mask.getLsbD b.val = true then
        (Work.writeDemand p (levelOf level) (s.advance dt).ctx ⟨s.bay b, []⟩).bay.sansFlags
      else (s.bay b).sansFlags := by
  rw [exec_setDemand_started dt p hs mask level] at h
  obtain rfl := Host.Outcome.next.inj h
  rw [State.bay_reply, Event.finish_sansFlags, Event.onBays_bay _ _ _ (maskBays_nodup mask)]
  simp only [mem_maskBays]
  split <;> rfl

/-- The bay acts on the port's release (R7). -/
theorem exec_releaseBay_bay {tag bay : Byte} {timeout : Half} {t : State} {b : BayNo}
    (h : exec (.releaseBay dt p tag bay timeout) s = .next t) (hb : bayOf bay = some b)
    (hr : (s.port p).refusesRequest tag = none) (c : BayNo) :
    (t.bay c).sansFlags =
      if c = b then (Work.askRelease p (s.advance dt).ctx ⟨s.bay b, []⟩).bay.sansFlags else (s.bay c).sansFlags := by
  rw [exec_releaseBay_started dt p hs tag bay timeout hb hr] at h
  obtain rfl := Host.Outcome.next.inj h
  rw [State.bay_reply, State.endAccepted_sansFlags, State.bayEvent_sansFlags]
  simp [State.accept, State.ctx]

end

theorem Bay.afterReset_columns (x : Bay) : (∀ p, x.afterReset.demand p = .stop) ∧ x.afterReset.snapshot = none := by
  have h : (x.afterReset.demandA, x.afterReset.demandB, x.afterReset.snapshot) = (.stop, .stop, none) := by
    unfold Bay.afterReset
    cases x.prs <;> cases x.flt <;> simp [Bay.reset]
  simp only [Prod.mk.injEq] at h
  exact ⟨fun p => by cases p <;> simp [Bay.demand, h], h.2.2⟩

end Sys2Proof.Machine

namespace Sys2Proof
open Machine

/-- Settles O15: a column is written by a response of its own port's commands and by a removal, and by nothing else that
an event does. -/
theorem neitherPortWritesThePeersColumn : Obligations.NeitherPortWritesThePeersColumn := by
  refine ⟨fun s p b => ⟨_, rfl, ?_⟩, fun i s t p b h hi => ?_, fun s dt p q b => ⟨_, rfl, ?_⟩,
    fun s dt p b level tag timeout hs hp => ⟨?_, fun hne hslots htag => ?_⟩⟩
  · rw [State.bay_partReset]
    exact (Bay.afterReset_columns _).1 p
  · obtain ⟨hprs, he, hd, -⟩ | ⟨-, hup, hd, -⟩ | ⟨hd, -, hne, -⟩ := exec_writes h hi b
    · exact ⟨fun _ => .inr (.inr ⟨hprs, he⟩), fun _ _ => hd p⟩
    · exact ⟨fun hw => absurd (hd p) hw, fun _ he => absurd (hup.symm.trans he) (by decide)⟩
    · refine ⟨fun hw => ?_, fun hs he => absurd he (hne hs)⟩
      obtain hsame | hset | hrel := hd p
      exacts [absurd hsame hw, .inl hset, .inr (.inl hrel)]
  · obtain ⟨hprs, -⟩ | ⟨⟨dt', hdt⟩, -⟩ | ⟨hd, -⟩ := exec_writes (i := .portRestart dt p) rfl (by simp) b
    · cases hprs
    · cases hdt
    · simpa using hd q
  · have h := exec_setDemand_started dt p hs (BitVec.ofNat 8 (2 ^ b.val)) (BitVec.ofNat 8 level.rank)
    have hz := exec_setDemand_bay dt p hs h b
    rw [if_pos (mem_maskBays_single b)] at hz
    exact ⟨_, h, (Bay.demand_of_sansFlags hz p).trans ((Work.writeDemand_demand p _ _ hp).trans (levelOf_rank level))⟩
  · have hr := PortUnit.refusesRequest_eq_none hslots htag
    have h := exec_releaseBay_started dt p hs tag _ timeout (bayOf_ofNat b) hr
    have hz := exec_releaseBay_bay dt p hs h (bayOf_ofNat b) hr b
    rw [if_pos rfl] at hz
    exact ⟨_, h, (Bay.demand_of_sansFlags hz p).trans (Work.askRelease_demand p _ hne)⟩

/-- Settles O16: a snapshot is written by a grant and cleared by a removal, and the working copies by the completion of
a load, each alone among all events. -/
theorem settingsChangeOnlyWhereSaid : Obligations.SettingsChangeOnlyWhereSaid := by
  refine ⟨fun s b => ⟨_, rfl, ?_⟩, fun i s t h hi => ⟨fun hstart hreload => ?_, fun hload n => ?_, fun b => ?_⟩⟩
  · rw [State.bay_partReset]
    exact (Bay.afterReset_columns _).2
  · exact Prod.mk.inj (exec_working h hi hstart hreload)
  · obtain ⟨dt, rfl, hs⟩ | ⟨owner, due, rfl, hs⟩ := hload
    · obtain rfl := Host.Outcome.next.inj h
      rw [if_pos ((State.starting_iff s).mpr hs)]
      exact s.store.installAll_loads.1 n
    · dsimp only [exec, execReloadEnd] at h
      rw [hs] at h
      obtain rfl := Host.Outcome.next.inj h
      have hw := State.endRequests_working
        (s := ({ s.advanceTo due with store := s.store.installAll } : State).takeReload) owner
        (storeEnding .reload ⟨.complete, .none, none⟩)
      exact (congrArg (fun w => w.1.get n) hw).trans (s.store.installAll_loads.1 n)
  · obtain ⟨hprs, he, -, hsn⟩ | ⟨hg, hup, -, hsn⟩ | ⟨-, hsn, hne, hnup⟩ := exec_writes h hi b
    · exact ⟨fun _ => .inr ⟨hprs, he, hsn⟩, fun _ hup => absurd (he.symm.trans hup) (by decide),
        fun _ _ => hsn⟩
    · exact ⟨fun _ => .inl ⟨hg, hup, hsn⟩, fun _ _ => hsn,
        fun _ he => absurd (hup.symm.trans he) (by decide)⟩
    · exact ⟨fun hw => absurd hsn hw, fun hs hup => absurd hup (hnup hs), fun hs he => absurd he (hne hs)⟩

end Sys2Proof
end

section
/-!
The end of requests, exactly, and the frame of one bay's event (R11, R27, R178).
-/

namespace Sys2Proof.Machine

/-! ### Flags and LED, once cleared -/

theorem Bay.relight_of_wanted {c : Ctx} {x : Bay} (h : x.ledWanted = x.ledPattern) : x.relight c = x := if_pos h

theorem Bay.ledWanted_relight (c : Ctx) (x : Bay) : (x.relight c).ledWanted = (x.relight c).ledPattern := by
  unfold Bay.relight
  split
  next h => exact h
  next => rfl

@[simp] theorem Bay.relight_relight (c c' : Ctx) (x : Bay) : (x.relight c).relight c' = x.relight c :=
  Bay.relight_of_wanted (x.ledWanted_relight c)

theorem Bay.setFlag_self {x : Bay} {p : Port} {f : Bool} (h : x.flag p = f) : x.setFlag p f = x := by
  cases p <;> subst h <;> rfl

/-- A bay whose flag for a port is cleared, its LED with it (R11, R165). -/
def Bay.unflagged (p : Port) (c : Ctx) (x : Bay) : Bay := (x.setFlag p false).relight c

@[simp] theorem Bay.flag_unflagged (p : Port) (c : Ctx) (x : Bay) : (x.unflagged p c).flag p = false := by
  simp [Bay.unflagged]

@[simp] theorem Bay.flag_unflagged_peer (p : Port) (c : Ctx) (x : Bay) :
    (x.unflagged p c).flag p.peer = x.flag p.peer := by
  simp [Bay.unflagged]

@[simp] theorem Bay.unflagged_unflagged (p : Port) (c : Ctx) (x : Bay) : (x.unflagged p c).unflagged p c = x.unflagged p c := by
  have h : (x.unflagged p c).setFlag p false = x.unflagged p c := Bay.setFlag_self (x.flag_unflagged p c)
  rw [Bay.unflagged, h, Bay.unflagged, Bay.relight_relight]

@[simp] theorem Bay.sansFlags_unflagged (p : Port) (c : Ctx) (x : Bay) : (x.unflagged p c).sansFlags = x.sansFlags :=
  x.sansFlags_setFlag_relight p false c

theorem Bay.unflagged_of_clear {p : Port} {c : Ctx} {x : Bay} (hf : x.flag p = false) (hl : x.ledWanted = x.ledPattern) :
    x.unflagged p c = x := by
  rw [Bay.unflagged, Bay.setFlag_self hf, Bay.relight_of_wanted hl]

theorem Bay.KeepsInputs.of_sansFlags {x y : Bay} (h : y.sansFlags = x.sansFlags) : x.KeepsInputs y := by
  have hA := Bay.demand_of_sansFlags h .a
  have hB := Bay.demand_of_sansFlags h .b
  simp only [Bay.sansFlags, Bay.mk.injEq] at h
  constructor <;> simp only [h]

theorem Bay.KeepsSpeed.of_sansFlags {x y : Bay} (h : y.sansFlags = x.sansFlags) : x.KeepsSpeed y := by
  simp only [Bay.sansFlags, Bay.mk.injEq] at h
  constructor <;> simp only [h]

/-! ### The end of requests, exactly -/

section
variable (p : Port) (ends : Request → Option Ending) (s : State)

theorem State.clearFlagAfter_port (r : Request) (e : Ending) (q : Port) :
    (s.clearFlagAfter p r e).port q = s.port q := by
  obtain ⟨t, h⟩ := s.clearFlagAfter_frame p r e
  rw [h]
  cases q <;> rfl

theorem State.clearFlagAfter_ctx (r : Request) (e : Ending) : (s.clearFlagAfter p r e).ctx = s.ctx := by
  obtain ⟨t, h⟩ := s.clearFlagAfter_frame p r e
  rw [h]
  rfl

/-- An ended RELEASE BAY of a bay, but for COMPLETE, with no other left clears that bay's flag (R11). -/
theorem State.clearFlagAfter_bay (r : Request) (e : Ending) (c : BayNo) :
    (s.clearFlagAfter p r e).bay c =
      if (r.kind = .release c ∧ e.termination ≠ .complete) ∧ ∀ q ∈ (s.port p).outstanding, q.kind ≠ .release c then
        (s.bay c).unflagged p s.ctx
      else s.bay c := by
  unfold State.clearFlagAfter
  split
  next b hk =>
    have hany : (s.port p).outstanding.any (fun q => q.kind = .release b) = true ↔
        ¬∀ q ∈ (s.port p).outstanding, q.kind ≠ .release b := by
      simp
    by_cases hc : c = b
    · subst hc
      split
      next h =>
        rw [hany] at h
        rw [if_neg (by tauto)]
      next h =>
        rw [hany] at h
        rw [if_pos (by tauto), State.bay_setBay_eq, if_pos rfl]
        rfl
    · have hne : ¬(r.kind = .release c ∧ e.termination ≠ .complete) := by
        rintro ⟨hr, -⟩
        exact hc (by rw [hk] at hr; cases hr; rfl)
      split
      · rw [if_neg (fun h => hne h.1)]
      · rw [State.bay_setBay_eq, if_neg hc, if_neg (fun h => hne h.1)]
  next hk => rw [if_neg (fun h => hk c h.1.1)]

/-- Whether a request ends but for COMPLETE, so that its flag may clear (R11). -/
def endsUnreleased (c : BayNo) (r : Request) : Prop :=
  r.kind = .release c ∧ ∃ e, ends r = some e ∧ e.termination ≠ .complete

theorem State.clearFlagFor_port (r : Request) (q : Port) : (s.clearFlagFor p ends r).port q = s.port q := by
  obtain h | ⟨e, -, h⟩ := s.clearFlagFor_cases p ends r <;> rw [h]
  exact s.clearFlagAfter_port p r e q

theorem State.clearFlagFor_ctx (r : Request) : (s.clearFlagFor p ends r).ctx = s.ctx := by
  obtain h | ⟨e, -, h⟩ := s.clearFlagFor_cases p ends r <;> rw [h]
  exact s.clearFlagAfter_ctx p r e

open Classical in
theorem State.clearFlagFor_bay (r : Request) (c : BayNo) :
    (s.clearFlagFor p ends r).bay c =
      if endsUnreleased ends c r ∧ ∀ q ∈ (s.port p).outstanding, q.kind ≠ .release c then (s.bay c).unflagged p s.ctx
      else s.bay c := by
  unfold State.clearFlagFor endsUnreleased
  cases ends r with
  | none => simp
  | some e =>
    dsimp only
    rw [State.clearFlagAfter_bay]
    simp only [Option.some.injEq, exists_eq_left']

/-- One rewrite after another of the same kind is one rewrite. -/
theorem ite_ite_of_idem {α : Type} (f : α → α) {x : α} (hf : f (f x) = f x) (A B Q : Prop) [Decidable (A ∧ Q)]
    [Decidable (B ∧ Q)] [Decidable ((B ∨ A) ∧ Q)] :
    (if A ∧ Q then f (if B ∧ Q then f x else x) else if B ∧ Q then f x else x) = if (B ∨ A) ∧ Q then f x else x := by
  by_cases hQ : Q <;> by_cases hA : A <;> by_cases hB : B <;> simp [*]

open Classical in
theorem State.clearFlags_bay (rs : List Request) (c : BayNo) :
    (rs.foldl (State.clearFlagFor p ends) s).bay c =
      if (∃ r ∈ rs, endsUnreleased ends c r) ∧ ∀ q ∈ (s.port p).outstanding, q.kind ≠ .release c then
        (s.bay c).unflagged p s.ctx
      else s.bay c := by
  induction rs generalizing s with
  | nil => simp
  | cons r rs ih =>
    rw [List.foldl_cons, ih, State.clearFlagFor_port, State.clearFlagFor_ctx, State.clearFlagFor_bay]
    rw [ite_ite_of_idem (Bay.unflagged p s.ctx) (Bay.unflagged_unflagged _ _ _)]
    exact if_congr (by rw [List.exists_mem_cons_iff]) rfl rfl

open Classical in
/-- The end of requests clears the flag of each bay of which it ends the last RELEASE BAY, one at least but for
COMPLETE (R11). -/
theorem State.endRequests_bay (c : BayNo) :
    (s.endRequests p ends).bay c =
      if (∃ r ∈ (s.port p).outstanding, endsUnreleased ends c r) ∧
          ∀ q ∈ (s.port p).outstanding, ends q = none → q.kind ≠ .release c then
        (s.bay c).unflagged p s.ctx
      else s.bay c := by
  rw [State.endRequests_eq, State.clearFlags_bay]
  have hctx : (s.closeRequests p ends).ctx = s.ctx := by simp [State.closeRequests, State.ctx]
  have hbay : (s.closeRequests p ends).bay c = s.bay c := by simp [State.closeRequests]
  have hport : ((s.closeRequests p ends).port p).outstanding =
      (s.port p).outstanding.filter fun r => (ends r).isNone := by
    cases p <;> rfl
  rw [hctx, hbay, hport]
  refine if_congr (and_congr ⟨?_, ?_⟩ ?_) rfl rfl
  · rintro ⟨r, hr, hends⟩
    exact ⟨r, (List.mem_filter.mp hr).1, hends⟩
  · rintro ⟨r, hr, hk, e, he, ht⟩
    exact ⟨r, List.mem_filter.mpr ⟨hr, by simp [he]⟩, hk, e, he, ht⟩
  · simp [List.mem_filter]

theorem State.endRequests_port :
    (s.endRequests p ends).port p =
      { s.port p with
        outstanding := (s.port p).outstanding.filter fun r => (ends r).isNone
        completions := (s.port p).completions ++
          (s.port p).outstanding.filterMap fun r => (ends r).map (s.record r) } := by
  obtain ⟨t, h⟩ := s.endRequests_spec p ends
  rw [h]
  cases p <;> rfl

theorem State.endRequests_peer : (s.endRequests p ends).port p.peer = s.port p.peer := by
  have h := s.endRequests_frame p ends
  simp only [Prod.mk.injEq] at h
  obtain ⟨-, -, -, -, -, -, -, -, hpeer⟩ := h
  exact hpeer

theorem State.endRequests_rest :
    ((s.endRequests p ends).arbiter, (s.endRequests p ends).receiver, (s.endRequests p ends).motion,
        (s.endRequests p ends).shared, (s.endRequests p ends).store, (s.endRequests p ends).pending,
        (s.endRequests p ends).draws) =
      (s.arbiter, s.receiver, s.motion, s.shared, s.store, s.pending, s.draws) := by
  have h := s.endRequests_frame p ends
  simp only [Prod.mk.injEq] at h ⊢
  obtain ⟨-, h1, h2, h3, h4, h5, h6, h7, -⟩ := h
  exact ⟨h1, h2, h3, h4, h5, h6, h7⟩

end

end Sys2Proof.Machine
end

section
/-!
CANCEL and timeouts end one tagged request (R11, R163, R180, R181).
-/

namespace Sys2Proof.Machine

theorem filter_tag_eq_singleton {l : List Request} (h : (l.map Request.tag).Nodup) {r : Request} (hr : r ∈ l) :
    (l.filter fun q => q.tag = r.tag) = [r] := by
  induction l with
  | nil => cases hr
  | cons q l ih =>
    rw [List.map_cons, List.nodup_cons] at h
    obtain ⟨hq, hl⟩ := h
    obtain rfl | hr := List.mem_cons.mp hr
    · have hrest : (l.filter fun q => q.tag = r.tag) = [] := by
        rw [List.filter_eq_nil_iff]
        intro q' hq'
        have : q'.tag ≠ r.tag := fun he => hq (he ▸ List.mem_map_of_mem hq')
        simpa using this
      rw [List.filter_cons_of_pos (by simp), hrest]
    · have hne : q.tag ≠ r.tag := fun he => hq (he ▸ List.mem_map_of_mem hr)
      rw [List.filter_cons_of_neg (by simpa using hne), ih hl hr]

theorem filterMap_ite_map {α β γ : Type} (P : α → Prop) [DecidablePred P] (e : β) (f : α → β → γ) (l : List α) :
    (l.filterMap fun r => (if P r then some e else none).map (f r)) = (l.filter fun r => P r).map (f · e) := by
  induction l with
  | nil => rfl
  | cons r l ih =>
    by_cases h : P r
    · rw [List.filterMap_cons_some (b := f r e) (by simp [h]), List.filter_cons_of_pos (by simp [h]), List.map_cons, ih]
    · rw [List.filterMap_cons_none (by simp [h]), List.filter_cons_of_neg (by simp [h]), ih]

section
variable (s : State) (p : Port) {r : Request} {e : Ending}

/-- The tagged request leaves its slot and its record joins the queue (R178, R181). -/
theorem State.endTagged_port (hs : ((s.port p).outstanding.map Request.tag).Nodup) (hr : r ∈ (s.port p).outstanding) :
    (s.endTagged p r.tag e).port p =
      { s.port p with
        outstanding := (s.port p).outstanding.filter fun q => q.tag ≠ r.tag
        completions := (s.port p).completions ++ [s.record r e] } := by
  rw [State.endTagged, State.endRequests_port, filterMap_ite_map, filter_tag_eq_singleton hs hr]
  have hout : ((s.port p).outstanding.filter fun q => (if q.tag = r.tag then some e else none).isNone) =
      (s.port p).outstanding.filter fun q => q.tag ≠ r.tag :=
    List.filter_congr fun q _ => by by_cases h : q.tag = r.tag <;> simp [h]
  rw [hout]
  rfl

open Classical in
/-- A RELEASE BAY that ends but for COMPLETE and was the port's only one for its bay clears its flag (R11). -/
theorem State.endTagged_bay (hr : r ∈ (s.port p).outstanding) (hs : ((s.port p).outstanding.map Request.tag).Nodup)
    (he : e.termination ≠ .complete) (c : BayNo) :
    (s.endTagged p r.tag e).bay c =
      if r.kind = .release c ∧ ∀ q ∈ (s.port p).outstanding, q.tag ≠ r.tag → q.kind ≠ .release c then
        (s.bay c).unflagged p s.ctx
      else s.bay c := by
  rw [State.endTagged, State.endRequests_bay]
  refine if_congr (and_congr ⟨?_, fun hk => ⟨r, hr, hk, e, by simp, he⟩⟩ ?_) rfl rfl
  · rintro ⟨q, hq, hk, e', he', -⟩
    have htag : q.tag = r.tag := by
      by_contra hne
      simp only [if_neg hne] at he'
      cases he'
    have hmem : q ∈ (s.port p).outstanding.filter fun q => q.tag = r.tag := List.mem_filter.mpr ⟨hq, by simpa using htag⟩
    rw [filter_tag_eq_singleton hs hr] at hmem
    exact List.mem_singleton.mp hmem ▸ hk
  · refine forall₂_congr fun q _ => ?_
    by_cases h : q.tag = r.tag <;> simp [h]

/-- What a bay keeps whose flag an ended request clears. -/
theorem Bay.keeps_of_unflagged (p : Port) (c : Ctx) (x : Bay) :
    (x.unflagged p c).flag p = false ∧ (x.unflagged p c).flag p.peer = x.flag p.peer ∧
      (x.unflagged p c).state = x.state ∧ x.KeepsInputs (x.unflagged p c) ∧ x.KeepsSpeed (x.unflagged p c) :=
  ⟨by simp, by simp, Bay.state_of_sansFlags (x.sansFlags_unflagged p c),
    .of_sansFlags (x.sansFlags_unflagged p c), .of_sansFlags (x.sansFlags_unflagged p c)⟩

end

/-- What the end of one tagged request leaves of the bays. -/
theorem State.endTagged_bays (s : State) (p : Port) {r : Request} {e : Ending} (hr : r ∈ (s.port p).outstanding)
    (hs : ((s.port p).outstanding.map Request.tag).Nodup) (he : e.termination ≠ .complete) (c : BayNo) :
    if r.kind = .release c ∧ ∀ q ∈ (s.port p).outstanding, q.tag ≠ r.tag → q.kind ≠ .release c then
      ((s.endTagged p r.tag e).bay c).flag p = false ∧
        ((s.endTagged p r.tag e).bay c).flag p.peer = (s.bay c).flag p.peer ∧
        ((s.endTagged p r.tag e).bay c).state = (s.bay c).state ∧
        (s.bay c).KeepsInputs ((s.endTagged p r.tag e).bay c) ∧ (s.bay c).KeepsSpeed ((s.endTagged p r.tag e).bay c)
    else (s.endTagged p r.tag e).bay c = s.bay c := by
  rw [State.endTagged_bay s p hr hs he]
  split
  exacts [(s.bay c).keeps_of_unflagged p s.ctx, rfl]

end Sys2Proof.Machine

namespace Sys2Proof
open Machine

/-- Settles O36: CANCEL is the end of the one request of its tag. -/
theorem cancelEndsTheTaggedRequest : Obligations.CancelEndsTheTaggedRequest := by
  intro s dt p tag hs hslots
  have hexec : exec (.cancel dt p tag) s = .next (if ((s.advance dt).port p).tagInUse tag then
      ((s.advance dt).endTagged p tag ⟨.cancelled, .none, none⟩).reply p 1 .accepted
      else (s.advance dt).reply p 1 .noSuchTag) :=
    congrArg Host.Outcome.next (State.takeCommand_started p _ (s.advance dt) hs)
  have hnodup : ((s.port p).outstanding.map Request.tag).Nodup := by
    cases p
    exacts [hslots.1.2, hslots.2.2]
  refine ⟨_, hexec, ?_, ?_⟩
  · split <;> simp
  split
  next hnone =>
    have hin : ((s.advance dt).port p).tagInUse tag = false := by
      simpa [PortUnit.tagInUse] using hnone
    rw [hin, if_neg (by simp)]
    have h := State.reply_spec p 1 .noSuchTag (s.advance dt)
    have hport := h.port
    rw [State.port_advance] at hport
    exact ⟨hport, h.peer.trans (by simp), h.bays, h.arbiter, h.receiver, h.motion, h.shared, h.store, h.pending,
      h.draws⟩
  next r hsome =>
    have hr : r ∈ (s.port p).outstanding := List.mem_of_find?_eq_some hsome
    have htag : r.tag = tag := by simpa using List.find?_some hsome
    subst htag
    have hin : ((s.advance dt).port p).tagInUse r.tag = true := by
      simp only [PortUnit.tagInUse, State.port_advance, List.any_eq_true, decide_eq_true_eq]
      exact ⟨r, hr, rfl⟩
    rw [hin, if_pos rfl]
    have h := State.reply_spec p 1 .accepted ((s.advance dt).endTagged p r.tag ⟨.cancelled, .none, none⟩)
    have hport := (s.advance dt).endTagged_port p (e := ⟨.cancelled, .none, none⟩) (by simpa using hnodup)
      (by simpa using hr)
    have hrest := (s.advance dt).endRequests_rest p fun q => if q.tag = r.tag then some ⟨.cancelled, .none, none⟩ else none
    simp only [Prod.mk.injEq] at hrest
    obtain ⟨harb, hrec, hmot, hsh, hst, hpend, hdraws⟩ := hrest
    refine ⟨?_, ?_, ?_, fun b => ?_⟩
    · rw [h.port, hport, State.port_advance]
      rfl
    · rw [h.peer]
      exact (State.endRequests_peer p _ _).trans (by simp)
    · simp only [Prod.mk.injEq]
      exact ⟨h.arbiter.trans harb, h.receiver.trans hrec, h.motion.trans hmot, h.shared.trans hsh, h.store.trans hst,
        h.pending.trans hpend, h.draws.trans hdraws⟩
    · have hb := (s.advance dt).endTagged_bays p (e := ⟨.cancelled, .none, none⟩) (by simpa using hr)
        (by simpa using hnodup) (by simp) b
      rw [State.bay_reply]
      simpa only [State.bay_advance, State.port_advance] using hb

/-- Settles O37: a timeout is the end of the one request whose timer it is, with the hold reason of its moment. -/
theorem timeoutsExpireTheRequest : Obligations.TimeoutsExpireTheRequest := by
  intro s p r b due i hslots hr hdue hi
  have hnodup : ((s.port p).outstanding.map Request.tag).Nodup := by
    cases p
    exacts [hslots.1.2, hslots.2.2]
  have hfind : (s.port p).findTag r.tag = some r := by
    rw [PortUnit.findTag, ← List.head?_filter, filter_tag_eq_singleton hnodup hr]
    rfl
  have hkind : r.kind.bay? = some b := by
    obtain ⟨⟨level, hk⟩, -⟩ | ⟨hk, -⟩ := hi <;> rw [hk] <;> rfl
  have hexec : exec i s = .next (s.requestExpiry p r b) := by
    obtain ⟨⟨level, hk⟩, rfl⟩ | ⟨hk, rfl⟩ := hi <;>
      simp only [exec, execWaitBayTimeout, execReleaseBayTimeout, hfind, hk]
  have hexpiry : s.requestExpiry p r b =
      (s.advanceTo due).endTagged p r.tag ⟨.expired, (s.advanceTo due).holdReason b, none⟩ := by
    simp only [State.requestExpiry, hdue]
  refine ⟨_, hexec, ?_, ?_, ?_, ?_, fun c => ?_⟩ <;> rw [hexpiry]
  · simp
  · rw [State.endTagged_port _ _ (by simpa using hnodup) (by simpa using hr), State.port_advanceTo]
    simp only [State.record, hkind]
    rfl
  · exact (State.endRequests_peer p _ _).trans (by simp)
  · exact State.endRequests_rest p _ (s.advanceTo due)
  · have hb := (s.advanceTo due).endTagged_bays p (e := ⟨.expired, (s.advanceTo due).holdReason b, none⟩)
      (by simpa using hr) (by simpa using hnodup) (by simp) c
    simpa only [State.bay_advanceTo, State.port_advanceTo] using hb

end Sys2Proof
end

section
/-!
READ BAY: the bytes of a bay's record and its hold reason (R20 to R24, R194).
-/

namespace Sys2Proof.Machine

/-! ### The hold reason, condition by condition -/

theorem BayState.inService_iff (st : BayState) : st.inService = true ↔
    st ∈ [.queued, .spinningUp, .spun, .loading, .ready, .unloading, .retracting, .spinningDown] := by
  cases st <;> decide

theorem BayState.inProgress_iff (st : BayState) : st.inProgress = true ↔
    st ∈ [.spinningUp, .spinningDown, .loading, .unloading, .retracting] := by
  cases st <;> decide

theorem Bay.peerHold_iff (x : Bay) : x.peerHold = true ↔
    x.flagA = true ∧ x.demandB ≠ .stop ∨ x.flagB = true ∧ x.demandA ≠ .stop := by
  simp [Bay.peerHold]

/-- The motion state refuses the step called for next, by state (R22). -/
theorem Bay.motionHolds_iff (m : Motion) (x : Bay) : x.motionHolds m = true ↔
    x.merged ≠ .stop ∧
      (x.state = .queued ∧ m ∈ [.transit, .alarm, .blind] ∨
        x.state = .spun ∧ x.merged = .load ∧ m ∈ [.stirred, .rough, .transit, .alarm, .blind] ∨
        x.state = .spinningDown ∧ m = .transit ∨
        x.state ∈ [.unloading, .retracting] ∧ x.merged = .load ∧ m ∈ [.rough, .transit, .alarm, .blind]) := by
  unfold Bay.motionHolds
  generalize x.merged = d
  cases x.state <;> cases d <;> cases m <;> decide

theorem State.budgetHolds_iff (s : State) (b : BayNo) : s.budgetHolds b = true ↔
    (s.bay b).state = .queued ∧
      (s.arbiter.limit < s.store.candidateSurge b ∨
        s.arbiter.queue.find? (fun c => s.store.candidateSurge c ≤ s.arbiter.limit) ≠ some b ∨
        s.arbiter.limit < s.draw + s.store.candidateSurge b) := by
  have hfind : s.headCandidate = s.arbiter.queue.find? fun c => s.store.candidateSurge c ≤ s.arbiter.limit := rfl
  simp [State.budgetHolds, State.fitsAlone, State.fitsBudget, hfind, or_assoc]

theorem State.inGap_iff (s : State) : s.inGap = true ↔
    s.arbiter.lastGrant.any (fun g => s.now / 1000 - g < s.store.workingCase.values.grantGap) = true := by
  unfold State.inGap millis
  cases s.arbiter.lastGrant <;> simp

theorem Bay.dwellHolds_iff (c : Ctx) (x : Bay) : x.dwellHolds c = true ↔
    x.state = .spun ∧ x.merged = .load ∧ c.motion = .quiet ∧
      x.lastPark.any (fun u => c.now / 1000 - u < x.timing.headDwell) = true := by
  unfold Bay.dwellHolds Bay.dwellPassed millis
  cases x.lastPark <;> simp [and_assoc]

/-! ### The bytes -/

theorem bitAt_eq (f : Bool) (place : Nat) : bitAt f place = 2 ^ place * f.toNat := by
  cases f <;> simp [bitAt]

theorem Demand.rank_larger (d e : Demand) : (d.larger e).rank = max d.rank e.rank := by
  cases d <;> cases e <;> rfl

theorem Bay.sincePark_eq (now : Micros) (x : Bay) :
    x.sincePark now = x.lastPark.elim 0 fun u => min 65535 (now / 1000 - u) := by
  unfold Bay.sincePark
  cases x.lastPark <;> rfl

end Sys2Proof.Machine

namespace Sys2Proof
open Machine

/-- Settles O21: the answer is the layout of the record, and each test of the hold reason is its condition of R21 to
R24. -/
theorem readBayReportsTheRecord : Obligations.ReadBayReportsTheRecord := by
  refine ⟨fun s dt p b hs => ?_, fun s b => ?_⟩
  · have hexec : exec (.readBay dt p (BitVec.ofNat 8 b.val)) s =
        .next ((s.advance dt).answer p 1 .accepted ((s.advance dt).bayBytes b) (.bayFlag b)) := by
      refine congrArg Host.Outcome.next ((State.takeCommand_started p _ (s.advance dt) hs).trans ?_)
      simp only [bayOf_ofNat]
    have h := (s.advance dt).answer_spec p 1 .accepted ((s.advance dt).bayBytes b) (.bayFlag b)
    have hport := h.port
    rw [State.port_advance] at hport
    refine ⟨_, hexec, by simp, ?_, h.peer.trans (by simp), h.bays, h.arbiter, h.receiver, h.motion, h.shared, h.store,
      h.pending, h.draws⟩
    rw [hport]
    simp only [State.bayBytes, bitAt_eq, Bay.merged, Demand.rank_larger, Bay.sincePark_eq, toHalf, toByte,
      Bay.secondsInState, one_mul, pow_zero, Nat.reducePow, List.cons_append, List.nil_append]
    rfl
  · refine if_congr (by simp) rfl <| if_congr (by simp) rfl <| if_congr Iff.rfl rfl <|
      if_congr (by rw [Bool.and_eq_true, decide_eq_true_eq, BayState.inService_iff]) rfl <|
      if_congr (Bay.peerHold_iff _) rfl <| if_congr (Bay.motionHolds_iff _ _) rfl <|
      if_congr (State.budgetHolds_iff _ _) rfl <|
      if_congr (by rw [Bool.and_eq_true, decide_eq_true_eq, State.inGap_iff]) rfl <|
      if_congr (Bay.dwellHolds_iff _ _) rfl <| if_congr (BayState.inProgress_iff _) rfl rfl

end Sys2Proof
end

section
/-!
The frame of one bay's event: what it leaves of the other bays, the arbiter and the ports (R27, R100, R183).
-/

namespace Sys2Proof.Machine

/-! ### Facts handed on to the arbiter and the ports -/

theorem Arbiter.onFact_mem (b c : BayNo) (f : Fact) (a : Arbiter) (h : c ≠ b) :
    c ∈ (a.onFact b f).queue ↔ c ∈ a.queue := by
  unfold Arbiter.onFact
  split <;> simp [List.mem_erase_of_ne h, h]

theorem Arbiter.onFacts_mem (b c : BayNo) (fs : List Fact) (a : Arbiter) (h : c ≠ b) :
    c ∈ (fs.foldl (fun a f => a.onFact b f) a).queue ↔ c ∈ a.queue := by
  induction fs generalizing a with
  | nil => rfl
  | cons f fs ih => rw [List.foldl_cons, ih, Arbiter.onFact_mem b c f a h]

/-- What facts leave of the arbiter: all but the queue and the mark (R99, R107). -/
theorem Arbiter.onFacts_rest (b : BayNo) (fs : List Fact) (a : Arbiter) :
    fs.foldl (fun a f => a.onFact b f) a =
      { a with
        queue := (fs.foldl (fun a f => a.onFact b f) a).queue
        evalOwed := (fs.foldl (fun a f => a.onFact b f) a).evalOwed } := by
  induction fs using List.reverseRecOn with
  | nil => rfl
  | append_singleton fs f ih =>
    rw [List.foldl_append, List.foldl_cons, List.foldl_nil]
    generalize fs.foldl (fun a f => a.onFact b f) a = a' at ih ⊢
    rw [ih]
    unfold Arbiter.onFact
    split <;> rfl

/-- The facts that set a bay's changed flag (R183). -/
def Fact.marksChanged : Fact → Bool
  | .entered .faulted | .entered .empty | .entered .released | .leftEmpty | .ejectorSet _ => true
  | _ => false

theorem PortUnit.onFact_eq (b : BayNo) (f : Fact) (u : PortUnit) :
    u.onFact b f = if f.marksChanged then u.setChanged b else u := by
  cases f with
  | entered st => cases st <;> rfl
  | _ => rfl

theorem PortUnit.setChanged_frame_status (b : BayNo) (u : PortUnit) :
    (u.setChanged b).frame.status = u.frame.status := by
  unfold PortUnit.setChanged
  dsimp only
  split
  next h => rw [h]; rfl
  next => rfl

/-- What facts of a bay leave of a port: all but the bay's changed flag and a pending clearing of it (R173, R183). -/
theorem PortUnit.onFacts_spec (b : BayNo) (fs : List Fact) (u : PortUnit) :
    fs.foldl (fun u f => u.onFact b f) u =
        { u with
          frame := (fs.foldl (fun u f => u.onFact b f) u).frame
          changed := if fs.any Fact.marksChanged then u.changed.set b true else u.changed } ∧
      (fs.foldl (fun u f => u.onFact b f) u).frame.status = u.frame.status := by
  induction fs using List.reverseRecOn with
  | nil => exact ⟨rfl, rfl⟩
  | append_singleton fs f ih =>
    rw [List.foldl_append, List.foldl_cons, List.foldl_nil, List.any_append, List.any_cons, List.any_nil, Bool.or_false,
      PortUnit.onFact_eq]
    generalize fs.foldl (fun u f => u.onFact b f) u = v at ih
    obtain ⟨hv, hstatus⟩ := ih
    cases hf : f.marksChanged with
    | false =>
      rw [if_neg (by simp), Bool.or_false]
      exact ⟨hv, hstatus⟩
    | true =>
      refine ⟨?_, (v.setChanged_frame_status b).trans hstatus⟩
      rw [if_pos rfl, hv]
      cases fs.any Fact.marksChanged <;> simp [PortUnit.setChanged]

/-- Facts leave a port's slots (R177). -/
theorem PortUnit.onFacts_slots (b : BayNo) (fs : List Fact) (u : PortUnit) :
    ((fs.foldl (fun u f => u.onFact b f) u).outstanding, (fs.foldl (fun u f => u.onFact b f) u).completions) =
      (u.outstanding, u.completions) := by
  rw [(PortUnit.onFacts_spec b fs u).1]

/-! ### One bay's event -/

theorem BayFrame.trans {b : BayNo} {s t u : State} (h : BayFrame b s t) (g : BayFrame b t u) : BayFrame b s u where
  others c hc := (g.others c hc).trans (h.others c hc)
  receiver := g.receiver.trans h.receiver
  motion := g.motion.trans h.motion
  shared := g.shared.trans h.shared
  store := g.store.trans h.store
  pending := g.pending.trans h.pending
  draws := g.draws.trans h.draws
  supply := ⟨g.supply.1.trans h.supply.1, g.supply.2.1.trans h.supply.2.1, g.supply.2.2.1.trans h.supply.2.2.1,
    g.supply.2.2.2.trans h.supply.2.2.2⟩
  gap := ⟨g.gap.1.trans h.gap.1, g.gap.2.trans h.gap.2⟩
  queue c hc := (g.queue c hc).trans (h.queue c hc)
  portA := g.portA.trans h.portA
  portB := g.portB.trans h.portB
  changed c hc := ⟨(g.changed c hc).1.trans (h.changed c hc).1, (g.changed c hc).2.trans (h.changed c hc).2⟩

theorem BayFrame.refl (b : BayNo) (s : State) : BayFrame b s s :=
  ⟨fun _ _ => rfl, rfl, rfl, rfl, rfl, rfl, rfl, ⟨rfl, rfl, rfl, rfl⟩, ⟨rfl, rfl⟩, fun _ _ => Iff.rfl, rfl, rfl,
    fun _ _ => ⟨rfl, rfl⟩⟩

theorem BayFrame.advanceTo (b : BayNo) (s : State) (due : Micros) : BayFrame b s (s.advanceTo due) where
  others _ _ := rfl
  receiver := rfl
  motion := rfl
  shared := rfl
  store := rfl
  pending := rfl
  draws := rfl
  supply := ⟨rfl, rfl, rfl, rfl⟩
  gap := ⟨rfl, rfl⟩
  queue _ _ := Iff.rfl
  portA := rfl
  portB := rfl
  changed _ _ := ⟨rfl, rfl⟩

theorem BayFrame.advance (b : BayNo) (s : State) (dt : Micros) : BayFrame b s (s.advance dt) where
  others _ _ := rfl
  receiver := rfl
  motion := rfl
  shared := rfl
  store := rfl
  pending := rfl
  draws := rfl
  supply := ⟨rfl, rfl, rfl, rfl⟩
  gap := ⟨rfl, rfl⟩
  queue _ _ := Iff.rfl
  portA := rfl
  portB := rfl
  changed _ _ := ⟨rfl, rfl⟩

/-- A port unit may change in its frame, its slots and one bay's changed flag. -/
theorem BayFrame.setPort (b : BayNo) (s : State) (p : Port) (u : PortUnit)
    (hu : (u.notice, u.discard, u.maskC, u.maskN, u.maskM, u.maskB, u.motionChanged) =
      ((s.port p).notice, (s.port p).discard, (s.port p).maskC, (s.port p).maskN, (s.port p).maskM, (s.port p).maskB,
        (s.port p).motionChanged))
    (hc : ∀ c, c ≠ b → u.changed.get c = (s.port p).changed.get c) : BayFrame b s (s.setPort p u) where
  others c _ := s.bay_setPort p u c
  receiver := s.setPort_receiver p u
  motion := s.setPort_motion p u
  shared := s.setPort_shared p u
  store := s.setPort_store p u
  pending := s.setPort_pending p u
  draws := s.setPort_draws p u
  supply := by simp
  gap := by simp
  queue _ _ := by simp
  portA := by cases p <;> first | exact hu | rfl
  portB := by cases p <;> first | exact hu | rfl
  changed c hcb := by cases p <;> exact ⟨by first | exact hc c hcb | rfl, by first | exact hc c hcb | rfl⟩

theorem BayFrame.accept (b : BayNo) (s : State) (p : Port) (tag : Byte) (kind : RequestKind) (due : Option Micros) :
    BayFrame b s (s.accept p tag kind due) := by
  unfold State.accept
  exact BayFrame.setPort b s p _ rfl fun _ _ => rfl

theorem BayFrame.reply (b : BayNo) (s : State) (p : Port) (params : Nat) (code : AnswerCode) :
    BayFrame b s (s.reply p params code) := by
  unfold State.reply State.answer
  exact BayFrame.setPort b s p _ rfl fun _ _ => rfl

theorem Event.onBay_port (b : BayNo) (f : Ctx → Work → Work) (e : Event) (p : Port) :
    (e.onBay b f).st.port p = (f e.st.ctx ⟨e.st.bay b, []⟩).facts.foldl (fun u x => u.onFact b x) (e.st.port p) := by
  rw [(Event.onBay_spec b f e).2]
  cases p <;> rfl

/-- What facts of another bay leave of a port's flags and of what no fact reaches. -/
theorem PortUnit.onFacts_frame (b : BayNo) (fs : List Fact) (u : PortUnit) :
    ((fs.foldl (fun u f => u.onFact b f) u).notice, (fs.foldl (fun u f => u.onFact b f) u).discard,
        (fs.foldl (fun u f => u.onFact b f) u).maskC, (fs.foldl (fun u f => u.onFact b f) u).maskN,
        (fs.foldl (fun u f => u.onFact b f) u).maskM, (fs.foldl (fun u f => u.onFact b f) u).maskB,
        (fs.foldl (fun u f => u.onFact b f) u).motionChanged) =
      (u.notice, u.discard, u.maskC, u.maskN, u.maskM, u.maskB, u.motionChanged) := by
  rw [(PortUnit.onFacts_spec b fs u).1]

theorem PortUnit.onFacts_changed (b c : BayNo) (fs : List Fact) (u : PortUnit) :
    (fs.foldl (fun u f => u.onFact b f) u).changed.get c =
      if c = b ∧ fs.any Fact.marksChanged = true then true else u.changed.get c := by
  rw [(PortUnit.onFacts_spec b fs u).1]
  dsimp only
  cases fs.any Fact.marksChanged <;> simp [Eight.get_set_eq]

theorem Event.onBay_bayFrame (b : BayNo) (f : Ctx → Work → Work) (s : State) :
    BayFrame b s (s.event.onBay b f).st := by
  have hframe := Event.onBay_frame b f s.event
  simp only [Prod.mk.injEq] at hframe
  obtain ⟨-, hreceiver, hmotion, hshared, hstore, hpending, hdraws⟩ := hframe
  have hA := s.event.onBay_port b f .a
  have hB := s.event.onBay_port b f .b
  have harb := s.event.onBay_arbiter b f
  have hrest := Arbiter.onFacts_rest b (f s.event.st.ctx ⟨s.event.st.bay b, []⟩).facts s.arbiter
  generalize (f s.event.st.ctx ⟨s.event.st.bay b, []⟩).facts = fs at hA hB harb hrest
  have hkeep := harb.trans hrest
  refine ⟨fun c hc => ?_, hreceiver, hmotion, hshared, hstore, hpending, hdraws,
    by rw [hkeep]; exact ⟨rfl, rfl, rfl, rfl⟩, by rw [hkeep]; exact ⟨rfl, rfl⟩, fun c hc => ?_, ?_, ?_, fun c hc => ⟨?_, ?_⟩⟩
  · rw [State.onBay_bay, if_neg hc]
  · rw [harb]
    exact Arbiter.onFacts_mem b c fs s.arbiter hc
  · rw [show (s.event.onBay b f).st.portA = _ from hA]
    exact PortUnit.onFacts_frame b fs s.portA
  · rw [show (s.event.onBay b f).st.portB = _ from hB]
    exact PortUnit.onFacts_frame b fs s.portB
  · rw [show (s.event.onBay b f).st.portA = _ from hA, PortUnit.onFacts_changed, if_neg (fun h => hc h.1)]
    rfl
  · rw [show (s.event.onBay b f).st.portB = _ from hB, PortUnit.onFacts_changed, if_neg (fun h => hc h.1)]
    rfl

/-- The end of requests of one bay reaches no other. -/
theorem State.endRequests_bayFrame (b : BayNo) (p : Port) (ends : Request → Option Ending) (s : State)
    (h : ∀ r ∈ (s.port p).outstanding, ∀ e, ends r = some e → ∀ c, r.kind = .release c → c = b) :
    BayFrame b s (s.endRequests p ends) := by
  have hrest := s.endRequests_rest p ends
  simp only [Prod.mk.injEq] at hrest
  obtain ⟨harb, hreceiver, hmotion, hshared, hstore, hpending, hdraws⟩ := hrest
  have hown := s.endRequests_port p ends
  have hpeer := s.endRequests_peer p ends
  have hports : ∀ q, ((s.endRequests p ends).port q).notice = (s.port q).notice ∧
      ((s.endRequests p ends).port q).discard = (s.port q).discard ∧
      ((s.endRequests p ends).port q).maskC = (s.port q).maskC ∧
      ((s.endRequests p ends).port q).maskN = (s.port q).maskN ∧
      ((s.endRequests p ends).port q).maskM = (s.port q).maskM ∧
      ((s.endRequests p ends).port q).maskB = (s.port q).maskB ∧
      ((s.endRequests p ends).port q).motionChanged = (s.port q).motionChanged ∧
      ((s.endRequests p ends).port q).changed = (s.port q).changed := by
    intro q
    by_cases hq : q = p
    · rw [hq, hown]; simp
    · have hq : q = p.peer := by cases p <;> cases q <;> first | rfl | exact absurd rfl hq
      rw [hq, hpeer]; simp
  refine ⟨fun c hc => ?_, hreceiver, hmotion, hshared, hstore, hpending, hdraws, by rw [harb]; simp, by rw [harb]; simp,
    fun c _ => by rw [harb], ?_, ?_, fun c _ => ⟨?_, ?_⟩⟩
  · classical
    rw [State.endRequests_bay, if_neg]
    rintro ⟨⟨r, hr, hk, e, he, -⟩, -⟩
    exact hc (h r hr e he c hk)
  · obtain ⟨h1, h2, h3, h4, h5, h6, h7, -⟩ := hports .a
    simp only [Prod.mk.injEq]
    exact ⟨h1, h2, h3, h4, h5, h6, h7⟩
  · obtain ⟨h1, h2, h3, h4, h5, h6, h7, -⟩ := hports .b
    simp only [Prod.mk.injEq]
    exact ⟨h1, h2, h3, h4, h5, h6, h7⟩
  · obtain ⟨-, -, -, -, -, -, -, h8⟩ := hports .a
    exact congrArg (·.get c) h8
  · obtain ⟨-, -, -, -, -, -, -, h8⟩ := hports .b
    exact congrArg (·.get c) h8

/-- Facts of one bay end requests for that bay alone. -/
theorem eventEnding_bay {p : Port} {b : BayNo} {fs : List (BayNo × Fact)} (h : ∀ f ∈ fs, f.1 = b) {r : Request}
    {e : Ending} (he : eventEnding p fs r = some e) : r.kind.bay? = some b := by
  obtain ⟨f, hf, hfe⟩ := List.exists_of_findSome?_eq_some he
  have hb := h f hf
  unfold factEnding at hfe
  split at hfe
  next c level hk =>
    split at hfe
    next hc => rw [hk]; simp only [RequestKind.bay?, ← hc, hb]
    next => cases hfe
  next c hk =>
    split at hfe
    next hc => rw [hk]; simp only [RequestKind.bay?, ← hc, hb]
    next => cases hfe
  all_goals cases hfe

theorem Event.onBay_facts_bay (b : BayNo) (f : Ctx → Work → Work) (s : State) :
    ∀ x ∈ (s.event.onBay b f).facts, x.1 = b := by
  intro x hx
  rw [(Event.onBay_spec b f s.event).1] at hx
  obtain hx | hx := List.mem_append.mp hx
  · cases hx
  · obtain ⟨y, -, rfl⟩ := List.mem_map.mp hx
    rfl

/-- One bay's event reaches no more than `BayFrame` gives (R27). -/
theorem State.bayEvent_bayFrame (b : BayNo) (f : Ctx → Work → Work) (s : State) : BayFrame b s (s.bayEvent b f) := by
  have key : ∀ p r e, eventEnding p (s.event.onBay b f).facts r = some e → ∀ c, r.kind = .release c → c = b := by
    intro p r e he c hk
    have hb := eventEnding_bay (Event.onBay_facts_bay b f s) he
    rw [hk] at hb
    exact Option.some.inj hb
  exact ((Event.onBay_bayFrame b f s).trans (State.endRequests_bayFrame b .a _ _ fun r _ => key .a r)).trans
    (State.endRequests_bayFrame b .b _ _ fun r _ => key .b r)

theorem State.bayEvent_arbiter (b : BayNo) (f : Ctx → Work → Work) (s : State) :
    (s.bayEvent b f).arbiter = (f s.ctx ⟨s.bay b, []⟩).facts.foldl (fun a x => a.onFact b x) s.arbiter := by
  have h := Event.finish_frame (s.event.onBay b f)
  simp only [Prod.mk.injEq] at h
  obtain ⟨-, harb, -⟩ := h
  exact harb.trans (Event.onBay_arbiter b f s.event)

/-- What finishing leaves of a port: all but its slots. -/
theorem Event.finish_port (e : Event) (p : Port) : ∃ os cs, e.finish.port p =
    { e.st.port p with outstanding := os, completions := cs } := by
  have ha := e.st.endRequests_port .a (eventEnding .a e.facts)
  have hpeer := e.st.endRequests_peer .a (eventEnding .a e.facts)
  have hb := (e.st.endRequests .a (eventEnding .a e.facts)).endRequests_port .b (eventEnding .b e.facts)
  have hpeer' := (e.st.endRequests .a (eventEnding .a e.facts)).endRequests_peer .b (eventEnding .b e.facts)
  cases p
  · exact ⟨_, _, (hpeer'.trans ha : _)⟩
  · rw [show (e.st.endRequests .a (eventEnding .a e.facts)).port .b = e.st.port .b from hpeer] at hb
    exact ⟨_, _, hb⟩

theorem State.bayEvent_changed (b c : BayNo) (f : Ctx → Work → Work) (s : State) (p : Port) :
    ((s.bayEvent b f).port p).changed.get c =
      if c = b ∧ (f s.ctx ⟨s.bay b, []⟩).facts.any Fact.marksChanged = true then true
      else (s.port p).changed.get c := by
  obtain ⟨os, cs, h⟩ := Event.finish_port (s.event.onBay b f) p
  have h' := congrArg (fun u => u.changed.get c) h
  refine h'.trans ?_
  dsimp only
  rw [Event.onBay_port, PortUnit.onFacts_changed]
  rfl

theorem State.bayEvent_frame_status (b : BayNo) (f : Ctx → Work → Work) (s : State) (p : Port) :
    ((s.bayEvent b f).port p).frame.status = (s.port p).frame.status := by
  obtain ⟨os, cs, h⟩ := Event.finish_port (s.event.onBay b f) p
  have h' := congrArg (fun u => u.frame.status) h
  refine h'.trans ?_
  dsimp only
  rw [Event.onBay_port]
  exact (PortUnit.onFacts_spec b _ _).2

/-- The mark is set by an event in which a bay enters a state (R107). -/
theorem State.bayEvent_evalOwed (b : BayNo) (f : Ctx → Work → Work) (s : State) :
    (s.bayEvent b f).arbiter.evalOwed = (s.arbiter.evalOwed || decide (entries (f s.ctx ⟨s.bay b, []⟩).facts ≠ [])) := by
  rw [State.bayEvent_arbiter, Arbiter.onFacts_evalOwed]

end Sys2Proof.Machine
end

section
/-!
SPINUP_LIMIT (R36), and what a settled change of PRS makes of its bay (R155, R156).
-/

namespace Sys2Proof.Machine

/-! ### SPINUP_LIMIT -/

/-- A bay with SPIN asserted stays in SPINNING_DOWN: quiet is yet to elapse (R43, R71). -/
theorem Work.toSpinningDown_of_spin (c : Ctx) (mayWatch : Bool) {w : Work} (hs : w.bay.spin = true)
    (hr : w.bay.restMark = false) :
    w.toSpinningDown c mayWatch =
      ((w.edit (Bay.dropSpin c)).enter c .spinningDown).edit (Bay.startSpindown c mayWatch) := by
  obtain ⟨hrest, -, -⟩ | ⟨-, e⟩ := w.toSpinningDown_cases c mayWatch
  · simp [Bay.startSpindown, hs, hr] at hrest
  · exact e

theorem Bay.restMark_of_spin {x : Bay} (h : x.monitorHolds = true) (hs : x.spin = true) : x.restMark = false := by
  simp only [Bay.monitorHolds, Bool.and_eq_true] at h
  obtain ⟨-, hrest⟩ := h
  simpa [hs] using hrest

/-- SPIN is asserted while a spin-up is in flight (R26). -/
theorem Bay.spin_of_spinningUp {x : Bay} (h : x.linesFollowState = true) (hs : x.state = .spinningUp) : x.spin = true := by
  simp only [Bay.linesFollowState, hs, Bool.and_eq_true] at h
  exact h.1.1

/-- The record that the expiry of SPINUP_LIMIT finds: one more try used (R18, R36). -/
def Bay.tried (retry : Bool) (x : Bay) : Bay := { x with tries := min 4 (x.tries + 1), spinupTimer := none, retry }

theorem Act.run_spinup (c : Ctx) {x : Bay} (h : x.state = .spinningUp) :
    Act.spinup.run c ⟨x, []⟩ =
      if min 4 (x.tries + 1) < x.timing.spinupTries then
        Work.toSpinningDown c false ⟨x.tried true, []⟩
      else Work.toFaulted c .spinupFailed false ⟨x.tried x.retry, []⟩ :=
  if_pos h

theorem Act.run_spinup_keeps (c : Ctx) {x : Bay} (h : x.state = .spinningUp) :
    x.KeepsInputs (Act.spinup.run c ⟨x, []⟩).bay ∧ x.KeepsSpeed (Act.spinup.run c ⟨x, []⟩).bay ∧
      (Act.spinup.run c ⟨x, []⟩).bay.tries = min 4 (x.tries + 1) := by
  have hin : ∀ r, x.KeepsInputs (x.tried r) := fun _ => ⟨rfl, rfl, rfl, rfl, rfl⟩
  have hsp : ∀ r, x.KeepsSpeed (x.tried r) := fun _ => ⟨rfl, rfl⟩
  have key : ∀ r v, Work.Goes c ⟨x.tried r, []⟩ v →
      x.KeepsInputs v.bay ∧ x.KeepsSpeed v.bay ∧ v.bay.tries = min 4 (x.tries + 1) :=
    fun r v hg => ⟨(hin r).trans hg.inputs, (hsp r).trans hg.speed, hg.tries⟩
  rw [Act.run_spinup c h]
  split
  exacts [key _ _ (Work.Goes.stay.toSpinningDown _), key _ _ (Work.Goes.stay.toFaulted _ _)]

/-- Settings in range allow four tries at most (R187). -/
theorem Bay.spinupTries_le {x : Bay} (h : x.snapshotInRange = true) : x.timing.spinupTries ≤ 4 := by
  have hp : x.timing.inRange = true := by
    unfold Bay.timing
    unfold Bay.snapshotInRange at h
    cases hs : x.snapshot with
    | none => exact builtIn_inRange.1
    | some sn => rw [hs] at h; exact h
  simp only [Profile.inRange, inBounds, Profile.fields, profileBounds, List.zip_cons_cons, List.zip_nil_right,
    List.all_cons, Bool.and_eq_true, decide_eq_true_eq] at hp
  obtain ⟨-, -, -, -, -, ⟨-, hle⟩, -⟩ := hp
  exact hle

/-- While tries remain the bay spins down with retry pending; then it is FAULTED (R36). -/
theorem Act.run_spinup_fields (c : Ctx) {x : Bay} (h : x.state = .spinningUp) (hs : x.spin = true)
    (hr : x.restMark = false) :
    let y := (Act.spinup.run c ⟨x, []⟩).bay
    (y.spin, y.since, y.quietTimer, y.unloadWatch) =
        (false, c.now, some (c.now + 1000 * x.timing.stopQuiet), none) ∧
      (y.state, y.retry, y.fault, y.spindownTimer) =
        if min 4 (x.tries + 1) < x.timing.spinupTries then
          (.spinningDown, true, none, some (c.now + 1000 * x.timing.spindownLimit))
        else (.faulted, false, some .spinupFailed, none) := by
  intro y
  have hy : y = (Act.spinup.run c ⟨x, []⟩).bay := rfl
  rw [Act.run_spinup c h] at hy
  split
  next ht =>
    rw [if_pos ht, Work.toSpinningDown_of_spin c false (by simpa [Bay.tried] using hs) (by simpa [Bay.tried] using hr)]
      at hy
    rw [hy]
    refine ⟨?_, ?_⟩ <;> simp [Bay.startSpindown, hs, Bay.tried, Bay.timing, dueAfter]
  next ht =>
    rw [if_neg ht] at hy
    rw [hy]
    refine ⟨?_, ?_⟩ <;> simp [Work.toFaulted, hs, Bay.tried, Bay.timing, dueAfter]

theorem Work.toFaulted_marksChanged (c : Ctx) (kind : FaultKind) (keepSpin : Bool) (w : Work) :
    (w.toFaulted c kind keepSpin).facts.any Fact.marksChanged = true := by
  simp [Work.toFaulted, Fact.marksChanged]

end Sys2Proof.Machine

namespace Sys2Proof
open Machine

/-- Settles O50: the expiry uses a try up and takes the entry that the tries left decide. -/
theorem spinupLimitRetriesOrFaults : Obligations.SpinupLimitRetriesOrFaults := by
  intro s b due hsound hst htimer
  obtain ⟨⟨-, hsnapshots, -⟩, -, -, -, -, hbays⟩ := hsound
  obtain ⟨-, hlines, -, hmonitor, -⟩ := hbays b
  have hspin := Bay.spin_of_spinningUp hlines hst
  have hexec : exec (.spinupLimitExpiry b) s = .next ((s.advanceTo due).bayEvent b Act.spinup.run) :=
    congrArg Host.Outcome.next (State.bayExpiry_running b Bay.spinupTimer _ s due htimer)
  have hz := (s.advanceTo due).bayEvent_sansFlags b b Act.spinup.run
  rw [if_pos rfl, State.bay_advanceTo] at hz
  obtain ⟨hin, hsp, htries⟩ := Act.run_spinup_keeps (s.advanceTo due).ctx hst
  obtain ⟨hfields, hexit⟩ := Act.run_spinup_fields (s.advanceTo due).ctx hst hspin (Bay.restMark_of_spin hmonitor hspin)
  have hleft : min 4 ((s.bay b).tries + 1) < (s.bay b).timing.spinupTries ↔
      (s.bay b).tries + 1 < (s.bay b).timing.spinupTries := by
    have hle := Bay.spinupTries_le (hsnapshots b)
    omega
  have hkeep := Bay.KeepsInputs.of_sansFlags hz
  have hspeed := Bay.KeepsSpeed.of_sansFlags hz
  simp only [Bay.sansFlags, Bay.mk.injEq] at hz
  simp only [Prod.mk.injEq] at hfields ⊢
  refine ⟨_, hexec, by simp, (BayFrame.advanceTo b s due).trans (State.bayEvent_bayFrame b _ _), hin.trans hkeep,
    hsp.trans hspeed, ?_, ?_⟩
  · simp only [hz, htries, hfields, true_and]
    exact ⟨rfl, rfl, trivial⟩
  · split
    next hcond =>
      rw [if_pos (hleft.mpr hcond)] at hexit
      simp only [Prod.mk.injEq] at hexit
      simp only [hz, hexit, true_and]
      rfl
    next hcond =>
      have hfail := mt hleft.mp hcond
      rw [if_neg hfail] at hexit
      simp only [Prod.mk.injEq] at hexit
      have hmarks : (Act.spinup.run (s.advanceTo due).ctx ⟨s.bay b, []⟩).facts.any Fact.marksChanged = true := by
        rw [Act.run_spinup _ hst, if_neg hfail]
        exact Work.toFaulted_marksChanged _ _ _ _
      have hchanged := fun p => ((s.advanceTo due).bayEvent_changed b b Act.spinup.run p).trans (if_pos ⟨rfl, hmarks⟩)
      refine ⟨by simp only [hz, hexit, true_and], hchanged .a, hchanged .b⟩

end Sys2Proof
end

section
/-!
A settled removal empties the bay, a settled insertion fills it (R155, R156).
-/

namespace Sys2Proof.Machine

/-- Ended requests leave a bay with no flag whose LED is right. -/
theorem State.endRequests_bay_of_unflagged (p : Port) (ends : Request → Option Ending) (s : State) {b : BayNo}
    (hf : (s.bay b).flag p = false) (hl : (s.bay b).ledWanted = (s.bay b).ledPattern) :
    (s.endRequests p ends).bay b = s.bay b := by
  classical
  rw [State.endRequests_bay]
  split
  exacts [Bay.unflagged_of_clear hf hl, rfl]

theorem Event.finish_bay_of_unflagged (e : Event) {b : BayNo} (hf : ∀ p, (e.st.bay b).flag p = false)
    (hl : (e.st.bay b).ledWanted = (e.st.bay b).ledPattern) : e.finish.bay b = e.st.bay b := by
  have ha := e.st.endRequests_bay_of_unflagged .a (eventEnding .a e.facts) (hf .a) hl
  have hb := (e.st.endRequests .a (eventEnding .a e.facts)).endRequests_bay_of_unflagged .b (eventEnding .b e.facts)
    (b := b) (by rw [ha]; exact hf .b) (by rw [ha]; exact hl)
  exact hb.trans ha

theorem State.bayEvent_bay_of_unflagged (s : State) (b : BayNo) (f : Ctx → Work → Work)
    (hf : ∀ p, (f s.ctx ⟨s.bay b, []⟩).bay.flag p = false)
    (hl : (f s.ctx ⟨s.bay b, []⟩).bay.ledWanted = (f s.ctx ⟨s.bay b, []⟩).bay.ledPattern) :
    (s.bayEvent b f).bay b = (f s.ctx ⟨s.bay b, []⟩).bay := by
  have hb : (s.event.onBay b f).st.bay b = (f s.ctx ⟨s.bay b, []⟩).bay := by rw [State.onBay_bay, if_pos rfl]
  exact (Event.finish_bay_of_unflagged (s.event.onBay b f) (b := b) (by rw [hb]; exact hf) (by rw [hb]; exact hl)).trans hb

/-- What a removal leaves, where the LED is deasserted while its pattern is OFF (R16, R30, R165). -/
theorem Work.toEmpty_bay (c : Ctx) (x : Bay) (h : x.ledPattern = .off → x.led = false ∧ x.ledTimer = none)
    (hprs : x.prs = false) :
    (Work.toEmpty c ⟨{ x with present := false, prsTimer := none }, []⟩).bay =
      { Bay.reset with
        prs := false, ejc := x.ejc, flt := x.flt, prk := x.prk, idx := x.idx
        ejectorOpen := x.ejectorOpen, ejcTimer := x.ejcTimer, fltOn := x.fltOn, fltTimer := x.fltTimer
        prkOn := x.prkOn, prkTimer := x.prkTimer, since := c.now } := by
  by_cases hp : x.ledPattern = .off
  · obtain ⟨hled, htimer⟩ := h hp
    simp [Work.toEmpty, Bay.relight, Bay.ledWanted, Bay.entering, Bay.reset, hp, hled, htimer, hprs]
  · simp [Work.toEmpty, Bay.relight, Bay.ledWanted, Bay.entering, Bay.reset, Ne.symm hp, hprs, LedPattern.half]

theorem exec_prsSettleExpiry_running {s : State} {b : BayNo} {due : Micros} (h : (s.bay b).prsTimer = some due) :
    exec (.prsSettleExpiry b) s = .next ((s.advanceTo due).bayEvent b Act.presence.run) :=
  congrArg Host.Outcome.next (State.bayExpiry_running b Bay.prsTimer _ s due h)

/-- No flag is set in EMPTY: its RELEASE BAYs have ended (R11, R163). -/
theorem State.flag_of_empty {s : State} (h : s.releasesHold) {b : BayNo} (hs : (s.bay b).state = .empty) (p : Port) :
    (s.bay b).flag p = false := by
  obtain ⟨hstands, -, -, hflag⟩ := h
  by_contra hf
  have hp : p ∈ [Port.a, .b] := by cases p <;> simp
  obtain hr | ⟨r, hr, hk⟩ := hflag p hp b (by simpa using hf)
  · rw [hs] at hr; cases hr
  · have hst := hstands p hp r hr
    simp [State.requestStands, hk, hs] at hst

/-! ### Where an entry to IDLE leads (R31, R159) -/

theorem Bay.releaseCondition_entered (c : Ctx) (st : BayState) {x : Bay} (h : x.state ≠ .released) :
    (((x.dropSpin c).entering c st).relight c).releaseCondition = x.releaseCondition := by
  simp [Bay.releaseCondition, h]

theorem Bay.joins_entered (c : Ctx) (st : BayState) (x : Bay) :
    (((x.dropSpin c).entering c st).relight c).joins = x.joins := by
  simp [Bay.joins]

/-- Leaving RELEASED clears the flags, so that it is left for good (R11). -/
theorem Bay.releaseCondition_left (c : Ctx) (st : BayState) {x : Bay} (h : x.releaseCondition = false) :
    (((x.dropSpin c).entering c st).relight c).releaseCondition = false := by
  by_cases hs : x.state = .released
  · simp only [Bay.releaseCondition, Bool.and_eq_false_iff, Bool.or_eq_false_iff, decide_eq_false_iff_not] at h
    simp only [Bay.releaseCondition, Bool.and_eq_false_iff, Bool.or_eq_false_iff, decide_eq_false_iff_not]
    obtain (h | h) | ⟨-, h⟩ := h <;> simp [h, hs]
  · rw [Bay.releaseCondition_entered c st hs]; exact h

/-- A bay that neither rests released nor joins stays in IDLE. -/
theorem Work.toIdle_stays (c : Ctx) {w : Work} (hr : w.bay.releaseCondition = false) (hj : w.bay.joins = false) :
    w.toIdle c = (w.edit (Bay.dropSpin c)).enter c .idle := by
  have hr' := Bay.releaseCondition_left c .idle hr
  have hj' := (Bay.joins_entered c .idle w.bay).trans hj
  obtain ⟨h, -⟩ | ⟨-, h, -⟩ | ⟨-, -, e⟩ := ((w.edit (Bay.dropSpin c)).enter c .idle).idleTest_cases c
  · rw [Work.enter_bay, Work.edit_bay, hr'] at h; cases h
  · rw [Work.enter_bay, Work.edit_bay, hj'] at h; cases h
  · exact e

/-- An insertion leads to IDLE, or to RELEASED where the ejector is open, in one entry (R155). -/
theorem Act.run_inserts (c : Ctx) {x : Bay} (hprs : x.prs = true) (hst : x.state = .empty) (hp : x.present = false)
    (hm : x.merged = .stop) (hf : ∀ p, x.flag p = false) :
    Act.presence.run c ⟨x, []⟩ =
      (Work.edit (Bay.dropSpin c) ⟨x.inserted, []⟩).enter c (if x.ejectorOpen then .released else .idle) := by
  obtain ⟨heq, -⟩ | hr | ⟨-, -, ⟨-, he, e⟩ | ⟨-, he, e⟩ | ⟨hne, -⟩⟩ := Act.run_presence_cases c x
  · rw [hprs, hp] at heq; cases heq
  · exact absurd hr.2.2 (by simp [hp])
  · rw [e, he]; rfl
  · have hA : x.flagA = false := hf .a
    have hB : x.flagB = false := hf .b
    have hrelease : x.inserted.releaseCondition = false := by
      simp [Bay.releaseCondition, Bay.inserted, hA, hB, he]
    have hjoins : x.inserted.joins = false := by
      have hmerged : x.inserted.merged = .stop := hm
      simp [Bay.joins, hmerged]
    rw [e, he, Work.toIdle_stays c hrelease hjoins]
    rfl
  · exact absurd hst hne

end Sys2Proof.Machine

namespace Sys2Proof
open Machine

/-- Settles O43: a removal is the one entry to EMPTY, and an insertion one entry to IDLE or RELEASED, from a record
with no demand and no flag. -/
theorem presenceEmptiesAndFillsTheBay : Obligations.PresenceEmptiesAndFillsTheBay := by
  refine ⟨fun s b due hq hled htimer hprs hpresent => ?_, fun s b due hsound htimer hprs hst => ?_⟩
  · have hr : Act.presence.removes (s.bay b) := ⟨rfl, hprs, hpresent⟩
    have hrun := Act.run_removes hr (s.advanceTo due).ctx
    have hbay := Work.toEmpty_bay (s.advanceTo due).ctx (s.bay b) hled hprs
    have hfacts : (Act.presence.run (s.advanceTo due).ctx ⟨s.bay b, []⟩).facts = [.entered .empty] := by
      rw [hrun]; rfl
    rw [← hrun] at hbay
    have hkeep := (s.advanceTo due).bayEvent_bay_of_unflagged b Act.presence.run
      (fun p => by rw [State.bay_advanceTo, hbay]; cases p <;> rfl) (by rw [State.bay_advanceTo, hbay]; rfl)
    have hchanged := (s.advanceTo due).bayEvent_changed b b Act.presence.run
    have harb := (s.advanceTo due).bayEvent_arbiter b Act.presence.run
    rw [State.bay_advanceTo, hfacts] at harb
    simp only [State.bay_advanceTo, hfacts] at hchanged
    refine ⟨_, exec_prsSettleExpiry_running htimer, by simp, (BayFrame.advanceTo b s due).trans (State.bayEvent_bayFrame b _ _),
      hkeep.trans hbay, ?_, ?_, hchanged .a, hchanged .b⟩
    · rw [harb]
      exact hq.1.not_mem_erase
    · rw [harb]
      rfl
  · obtain ⟨-, ⟨-, hallowed⟩, -, hreleases, -, hbays⟩ := hsound
    obtain ⟨hdetails, hlines, -, hmonitor, -⟩ := hbays b
    obtain ⟨hspin, -, -, -⟩ := Bay.monitorHolds_empty hmonitor hst
    have hp : (s.bay b).present = false := by
      rw [← Bool.not_eq_true, Bay.present_iff_of_allowed (hallowed b), hst]
      simp
    have hm := Bay.merged_stop_of_allowed (hallowed b) (.inl hst)
    have hf := State.flag_of_empty hreleases hst
    have hA : (s.bay b).flagA = false := hf .a
    have hB : (s.bay b).flagB = false := hf .b
    obtain ⟨hdA, hdB⟩ := (Bay.merged_eq_stop_iff _).mp hm
    have hrun := Act.run_inserts (s.advanceTo due).ctx hprs hst hp hm hf
    have hfacts : (Act.presence.run (s.advanceTo due).ctx ⟨s.bay b, []⟩).facts =
        [.leftEmpty, .entered (if (s.bay b).ejectorOpen then .released else .idle)] := by
      rw [hrun]
      simp [Bay.inserted, hst]
    have hkeep := (s.advanceTo due).bayEvent_bay_of_unflagged b Act.presence.run
      (fun p => by rw [State.bay_advanceTo, hrun]; cases p <;> simp [Bay.flag, Bay.inserted, hA, hB])
      (by rw [State.bay_advanceTo, hrun]; exact Bay.ledWanted_relight _ _)
    rw [State.bay_advanceTo, hrun] at hkeep
    have hchanged := (s.advanceTo due).bayEvent_changed b b Act.presence.run
    simp only [State.bay_advanceTo, hfacts] at hchanged
    have howed := (s.advanceTo due).bayEvent_evalOwed b Act.presence.run
    rw [State.bay_advanceTo, hfacts] at howed
    refine ⟨_, exec_prsSettleExpiry_running htimer, by simp, (BayFrame.advanceTo b s due).trans (State.bayEvent_bayFrame b _ _),
      ?_, ?_, ?_, ?_, ?_, hchanged .a, hchanged .b⟩
    · rw [hkeep]; simp
    · rw [hkeep]; simp [Bay.inserted, hspin]; rfl
    · rw [hkeep]; simp [Bay.inserted, hA, hB, hdA, hdB]
    · rw [hkeep]; simp [Bay.inserted]
    · rw [howed]; simp

end Sys2Proof
end

section
/-!
Events of several bays: what each acts on, and what the arbiter and the ports make of their facts (R6, R27).
-/

namespace Sys2Proof.Machine

/-! ### Several bays acting one after the other -/

section
variable (f : Ctx → Work → Work)

/-- What a bay hands on in an event that starts from `e`. -/
def Event.bayFacts (e : Event) (b : BayNo) : List Fact := (f e.st.ctx ⟨e.st.bay b, []⟩).facts

theorem Event.bayFacts_onBay (e : Event) {b c : BayNo} (h : c ≠ b) :
    (e.onBay b f).bayFacts f c = e.bayFacts f c := by
  simp only [Event.bayFacts, Event.onBay_ctx, Event.onBay_bay, if_neg h]

theorem Event.bayFacts_onBay_of_mem (e : Event) {b : BayNo} {bs : List BayNo} (h : b ∉ bs) :
    ∀ c ∈ bs, (e.onBay b f).bayFacts f c = e.bayFacts f c :=
  fun _ hc => e.bayFacts_onBay f fun he => h (he ▸ hc)

/-- Each bay of a list without repeats hands on its facts, in the order of the list. -/
theorem Event.onBays_facts (bs : List BayNo) (e : Event) (h : bs.Nodup) :
    (e.onBays bs f).facts = e.facts ++ bs.flatMap fun b => (e.bayFacts f b).map fun x => (b, x) := by
  induction bs generalizing e with
  | nil => simp [Event.onBays]
  | cons b bs ih =>
    obtain ⟨hb, hn⟩ := List.nodup_cons.mp h
    have step : e.onBays (b :: bs) f = (e.onBay b f).onBays bs f := rfl
    rw [step, ih _ hn, (Event.onBay_spec b f e).1, List.flatMap_cons, ← List.append_assoc]
    congr 1
    exact List.flatMap_congr fun c hc => by rw [e.bayFacts_onBay_of_mem f hb c hc]

theorem foldl_congr_of_mem {α β : Type} {g g' : β → α → β} (l : List α) (h : ∀ a ∈ l, ∀ x, g x a = g' x a) (x : β) :
    l.foldl g x = l.foldl g' x := by
  induction l generalizing x with
  | nil => rfl
  | cons a l ih =>
    rw [List.foldl_cons, List.foldl_cons, h a (List.mem_cons_self ..)]
    exact ih (fun a ha => h a (List.mem_cons_of_mem _ ha)) _

theorem Event.onBays_arbiter (bs : List BayNo) (e : Event) (h : bs.Nodup) :
    (e.onBays bs f).st.arbiter =
      bs.foldl (fun a b => (e.bayFacts f b).foldl (fun a x => a.onFact b x) a) e.st.arbiter := by
  induction bs generalizing e with
  | nil => rfl
  | cons b bs ih =>
    obtain ⟨hb, hn⟩ := List.nodup_cons.mp h
    have step : e.onBays (b :: bs) f = (e.onBay b f).onBays bs f := rfl
    rw [step, ih _ hn, List.foldl_cons, Event.onBay_arbiter]
    exact foldl_congr_of_mem bs (fun c hc a => by rw [e.bayFacts_onBay_of_mem f hb c hc]) _

theorem Event.onBays_port (bs : List BayNo) (e : Event) (h : bs.Nodup) (p : Port) :
    (e.onBays bs f).st.port p =
      bs.foldl (fun u b => (e.bayFacts f b).foldl (fun u x => u.onFact b x) u) (e.st.port p) := by
  induction bs generalizing e with
  | nil => rfl
  | cons b bs ih =>
    obtain ⟨hb, hn⟩ := List.nodup_cons.mp h
    have step : e.onBays (b :: bs) f = (e.onBay b f).onBays bs f := rfl
    rw [step, ih _ hn, List.foldl_cons, Event.onBay_port]
    exact foldl_congr_of_mem bs (fun c hc a => by rw [e.bayFacts_onBay_of_mem f hb c hc]) _

end

/-- Facts of bays leave of the arbiter all but the queue and the mark. -/
theorem Arbiter.onBayFacts_rest (bs : List BayNo) (fs : BayNo → List Fact) (a : Arbiter) :
    let a' := bs.foldl (fun a b => (fs b).foldl (fun a x => a.onFact b x) a) a
    a' = { a with queue := a'.queue, evalOwed := a'.evalOwed } := by
  induction bs generalizing a with
  | nil => rfl
  | cons b bs ih =>
    have h := ih ((fs b).foldl (fun a x => a.onFact b x) a)
    have hb := Arbiter.onFacts_rest b (fs b) a
    simp only [List.foldl_cons] at h ⊢
    rw [h, hb]

theorem PortUnit.onBayFacts_frame_status (bs : List BayNo) (fs : BayNo → List Fact) (u : PortUnit) :
    (bs.foldl (fun u b => (fs b).foldl (fun u x => u.onFact b x) u) u).frame.status = u.frame.status := by
  induction bs generalizing u with
  | nil => rfl
  | cons b bs ih =>
    rw [List.foldl_cons, ih]
    exact (PortUnit.onFacts_spec b _ _).2

/-- The mark is set where a bay entered a state (R107). -/
theorem Arbiter.onBayFacts_evalOwed (bs : List BayNo) (fs : BayNo → List Fact) (a : Arbiter) :
    (bs.foldl (fun a b => (fs b).foldl (fun a x => a.onFact b x) a) a).evalOwed =
      (a.evalOwed || bs.any fun b => decide (entries (fs b) ≠ [])) := by
  induction bs generalizing a with
  | nil => simp
  | cons b bs ih => rw [List.foldl_cons, ih, Arbiter.onFacts_evalOwed, List.any_cons, Bool.or_assoc]

/-! ### The end of requests leaves other bays alone -/

theorem Work.Goes.flag_of_clear {c : Ctx} {w v : Work} (h : Work.Goes c w v) {p : Port} (hw : w.bay.flag p = false) :
    v.bay.flag p = false := by
  induction h with
  | stay => exact hw
  | edit f _ hf ih => exact (hf.flag p).trans ih
  | enter st _ _ _ ih => rw [Work.enter_bay, Bay.flag_entering, ih]; rfl

theorem State.endRequests_flag_of_clear (p : Port) (ends : Request → Option Ending) (s : State) {b : BayNo} {q : Port}
    (h : (s.bay b).flag q = false) : ((s.endRequests p ends).bay b).flag q = false := by
  classical
  rw [State.endRequests_bay]
  split
  · by_cases hq : q = p
    · rw [hq]; simp
    · have hq : q = p.peer := by cases p <;> cases q <;> first | rfl | exact absurd rfl hq
      rw [hq] at h ⊢
      simpa using h
  · exact h

theorem Event.finish_flag_of_clear (e : Event) {b : BayNo} {q : Port} (h : (e.st.bay b).flag q = false) :
    (e.finish.bay b).flag q = false :=
  State.endRequests_flag_of_clear .b _ _ (State.endRequests_flag_of_clear .a _ _ h)

/-- A request ends by a fact of its bay. -/
theorem exists_fact_of_eventEnding {p : Port} {fs : List (BayNo × Fact)} {r : Request} {e : Ending}
    (h : eventEnding p fs r = some e) : ∃ b f, (b, f) ∈ fs ∧ r.kind.bay? = some b ∧ factEnding p r (b, f) = some e := by
  obtain ⟨⟨b, f⟩, hf, he⟩ := List.exists_of_findSome?_eq_some h
  refine ⟨b, f, hf, ?_, he⟩
  exact eventEnding_bay (p := p) (fs := [(b, f)]) (e := e) (by simp) (by simp [eventEnding, he])

/-- A bay with no fact is left as it is. -/
theorem State.endRequests_bay_of_no_facts (p q : Port) (s : State) {fs : List (BayNo × Fact)} {b : BayNo}
    (h : ∀ f, (b, f) ∉ fs) : (s.endRequests p (eventEnding q fs)).bay b = s.bay b := by
  classical
  rw [State.endRequests_bay, if_neg]
  rintro ⟨⟨r, -, hk, e, he, -⟩, -⟩
  obtain ⟨c, f, hf, hc, -⟩ := exists_fact_of_eventEnding he
  rw [hk] at hc
  exact h f (Option.some.inj hc ▸ hf)

theorem Event.finish_bay_of_no_facts (e : Event) {b : BayNo} (h : ∀ f, (b, f) ∉ e.facts) :
    e.finish.bay b = e.st.bay b :=
  (State.endRequests_bay_of_no_facts .b .b _ h).trans (State.endRequests_bay_of_no_facts .a .a _ h)

/-! ### SET DEMAND -/

theorem Work.writeDemand_absent (p : Port) (level : Demand) (c : Ctx) {x : Bay} (h : x.present = false) :
    Work.writeDemand p level c ⟨x, []⟩ = ⟨x, []⟩ := by
  simp [Work.writeDemand, h]

/-- The bay as a write of its port's column finds it, the old merged demand apart (R6, R11). -/
def Bay.written (p : Port) (level : Demand) (c : Ctx) (x : Bay) : Bay :=
  if level = .stop then x.setDemand p .stop else ((x.setDemand p level).setFlag p false).relight c

/-- What a write hands on at once: a demand raised above STOP (R163). -/
def writtenFacts (p : Port) (level : Demand) : List Fact := if level = .stop then [] else [.demandRaised p]

theorem Work.writeDemand_present (p : Port) (level : Demand) (c : Ctx) {x : Bay} (h : x.present = true) :
    Work.writeDemand p level c ⟨x, []⟩ =
      Work.demandWritten c x.merged ⟨x.written p level c, writtenFacts p level⟩ := by
  unfold Work.writeDemand Bay.written writtenFacts
  rw [if_pos h]
  dsimp only
  split <;> rfl

theorem Work.writeDemand_demand_peer (p : Port) (level : Demand) (c : Ctx) {x : Bay} (h : x.present = true) :
    (Work.writeDemand p level c ⟨x, []⟩).bay.demand p.peer = x.demand p.peer := by
  have hg : Work.Goes c ⟨x.written p level c, writtenFacts p level⟩ (Work.writeDemand p level c ⟨x, []⟩) := by
    rw [Work.writeDemand_present p level c h]
    exact Work.Goes.stay.demandWritten _
  rw [hg.inputs.demand]
  simp only [Bay.written]
  split <;> simp

theorem Work.writeDemand_flag (p : Port) (level : Demand) (c : Ctx) {x : Bay} (h : x.present = true)
    (hl : level ≠ .stop) : (Work.writeDemand p level c ⟨x, []⟩).bay.flag p = false := by
  have hg : Work.Goes c ⟨x.written p level c, writtenFacts p level⟩ (Work.writeDemand p level c ⟨x, []⟩) := by
    rw [Work.writeDemand_present p level c h]
    exact Work.Goes.stay.demandWritten _
  exact hg.flag_of_clear (by simp [Bay.written, hl])

theorem levelOf_eq (level : Byte) : levelOf level = if level = 0 then .stop else if level = 1 then .spin else .load := by
  have h : ∀ n : Byte, level = n ↔ level.toNat = n.toNat := fun n => BitVec.toNat_inj.symm
  unfold levelOf
  rw [if_congr (h 0) rfl (if_congr (h 1) rfl rfl)]
  split <;> simp_all

theorem levelOf_ne_stop {level : Byte} (h : level ≠ 0) : levelOf level ≠ .stop := by
  rw [levelOf_eq, if_neg h]
  split <;> simp

/-- A bay out of the mask, or absent, hands nothing on. -/
theorem State.writeDemand_noFacts (s : State) (p : Port) (mask : Byte) (level : Demand) {b : BayNo}
    (h : ¬(mask.getLsbD b.val = true ∧ (s.bay b).present = true)) :
    ∀ f, (b, f) ∉ (s.event.onBays (maskBays mask) (Work.writeDemand p level)).facts := by
  intro f hf
  rw [Event.onBays_facts _ _ _ (maskBays_nodup mask)] at hf
  obtain hf | hf := List.mem_append.mp hf
  · cases hf
  obtain ⟨c, hc, hf⟩ := List.mem_flatMap.mp hf
  obtain ⟨g, hg, heq⟩ := List.mem_map.mp hf
  cases heq
  rw [mem_maskBays] at hc
  have habsent : (s.bay b).present = false := by simpa [hc] using h
  rw [Event.bayFacts, show s.event.st = s from rfl, Work.writeDemand_absent _ _ _ habsent] at hg
  cases hg

end Sys2Proof.Machine

namespace Sys2Proof
open Machine

/-- Settles O26: each present bay of the mask acts on its write, and no other bay has a fact. -/
theorem setDemandWritesTheOwnColumn : Obligations.SetDemandWritesTheOwnColumn := by
  intro s dt p mask level hs
  have hexec := exec_setDemand_started dt p hs mask level
  set e := (s.advance dt).event.onBays (maskBays mask) (Work.writeDemand p (levelOf level)) with he
  have hspec := State.reply_spec p 2 .accepted e.finish
  have hfinish := e.finish_frame
  have hframe := Event.onBays_frame (maskBays mask) (Work.writeDemand p (levelOf level)) (s.advance dt).event
  have harb := Event.onBays_arbiter (Work.writeDemand p (levelOf level)) (maskBays mask) (s.advance dt).event
    (maskBays_nodup mask)
  have hrest := Arbiter.onBayFacts_rest (maskBays mask)
    ((s.advance dt).event.bayFacts (Work.writeDemand p (levelOf level))) s.arbiter
  rw [← he] at hframe harb
  simp only [Prod.mk.injEq] at hfinish hframe
  obtain ⟨hnow, harbiter, hreceiver, hmotion, hshared, hstore, hpending, hdraws⟩ := hfinish
  obtain ⟨-, hreceiver', hmotion', hshared', hstore', hpending', hdraws'⟩ := hframe
  have hkeep := (hspec.arbiter.trans harbiter).trans (harb.trans hrest)
  refine ⟨_, hexec, by simp [he], ?_, fun b => ?_, ?_⟩
  · obtain ⟨os, cs, hport⟩ := e.finish_port p
    have hstatus : (e.finish.port p).frame.status = (s.port p).frame.status := by
      rw [hport]
      dsimp only
      rw [he, Event.onBays_port _ _ _ (maskBays_nodup mask), PortUnit.onBayFacts_frame_status]
      simp
    rw [hspec.port, hstatus]
    rfl
  · rw [State.bay_reply]
    have hbay := Event.onBays_bay (maskBays mask) (Work.writeDemand p (levelOf level)) (s.advance dt).event
      (maskBays_nodup mask) b
    rw [← he] at hbay
    split
    next hb =>
      obtain ⟨hmask, hpresent⟩ := hb
      rw [if_pos ((mem_maskBays mask b).mpr hmask)] at hbay
      have hz := (e.finish_sansFlags b).trans (congrArg Bay.sansFlags hbay)
      refine ⟨?_, ?_, fun hl => ?_⟩
      · rw [Bay.demand_of_sansFlags hz, ← levelOf_eq]
        exact Work.writeDemand_demand p _ _ hpresent
      · rw [Bay.demand_of_sansFlags hz]
        exact Work.writeDemand_demand_peer p _ _ hpresent
      · refine e.finish_flag_of_clear ?_
        rw [hbay]
        exact Work.writeDemand_flag p _ _ hpresent (levelOf_ne_stop hl)
    next hb =>
      rw [e.finish_bay_of_no_facts (State.writeDemand_noFacts (s.advance dt) p mask _ hb), hbay]
      split
      next hmem =>
        have habsent : (s.bay b).present = false := by simpa [(mem_maskBays mask b).mp hmem] using hb
        exact congrArg Work.bay (Work.writeDemand_absent p _ _ habsent)
      next => rfl
  · rw [hspec.receiver, hspec.motion, hspec.shared, hspec.store, hspec.pending, hspec.draws, hreceiver, hmotion, hshared,
      hstore, hpending, hdraws, hreceiver', hmotion', hshared', hstore', hpending', hdraws', hkeep]
    rfl

end Sys2Proof
end

section
/-!
PORT RESTART: the port's own unit and flags, and the RELEASED bays that rested on them alone (R17, R161, R185).
-/

namespace Sys2Proof.Machine

/-- A RELEASED bay that rests on one port's flag alone (R13, R161). -/
abbrev Bay.restsOn (p : Port) (x : Bay) : Prop :=
  x.state = .released ∧ x.flag p.peer = false ∧ x.ejectorOpen = false

section
variable (p : Port) (c : Ctx) {x : Bay}

theorem Work.restartFlag_stays (h : x.state = .released → (x.unflagged p c).releaseCondition = true) :
    Work.restartFlag p c ⟨x, []⟩ = ⟨x.unflagged p c, []⟩ := by
  have hs : (x.unflagged p c).state = x.state := Bay.state_of_sansFlags (x.sansFlags_unflagged p c)
  unfold Work.restartFlag
  dsimp only
  split
  next hr =>
    rw [Work.edit_bay, show (x.setFlag p false).relight c = x.unflagged p c from rfl, hs] at hr
    exact if_pos (h hr)
  next => rfl

/-- A flag that falls leaves the release condition where another source holds it. -/
theorem Bay.releaseCondition_unflagged (h : x.releaseCondition = true) (ho : x.flag p.peer = true ∨ x.ejectorOpen = true) :
    (x.unflagged p c).releaseCondition = true := by
  rw [Bay.releaseCondition_iff] at h ⊢
  obtain ⟨hm, -⟩ := h
  have hk := Bay.KeepsInputs.of_sansFlags (x.sansFlags_unflagged p c)
  rw [hk.merged, hk.ejectorOpen]
  refine ⟨hm, ?_⟩
  obtain ho | ho := ho
  · rw [← Bay.flag_unflagged_peer p c] at ho
    cases p
    exacts [.inr (.inl ho), .inl ho]
  · exact .inr (.inr ho)

theorem Work.restartFlag_leaves (h : x.restsOn p) (hm : x.merged = .stop) :
    Work.restartFlag p c ⟨x, []⟩ = (Work.edit (Bay.dropSpin c) ⟨x.unflagged p c, []⟩).enter c .idle := by
  obtain ⟨hs, hf, he⟩ := h
  have hk := Bay.KeepsInputs.of_sansFlags (x.sansFlags_unflagged p c)
  have hs' : (x.unflagged p c).state = .released := (Bay.state_of_sansFlags (x.sansFlags_unflagged p c)).trans hs
  have hown : (x.unflagged p c).flag p = false := by simp
  have hpeer : (x.unflagged p c).flag p.peer = false := by simpa using hf
  have hr : (x.unflagged p c).releaseCondition = false := by
    rw [← Bool.not_eq_true, Bay.releaseCondition_iff, hk.ejectorOpen, he]
    cases p <;> simp_all [Bay.flag, Port.peer]
  have hj : (x.unflagged p c).joins = false := by
    rw [← Bool.not_eq_true, Bay.joins_iff, hk.merged, hm]
    simp
  rw [← Work.toIdle_stays c hr hj]
  exact (if_pos hs').trans (if_neg (ne_true_of_eq_false hr))

end

/-- The facts of PORT RESTART: IDLE, entered from RELEASED by the bays that rested on the port's flag (R161). -/
theorem Work.restartFlag_facts (p : Port) (c : Ctx) {x : Bay} (hr : x.state = .released → x.releaseCondition = true) :
    (Work.restartFlag p c ⟨x, []⟩).facts = if x.restsOn p then [.entered .idle] else [] := by
  split
  next h =>
    have hm := ((Bay.releaseCondition_iff x).mp (hr h.1)).1
    have hs' : (x.unflagged p c).state = .released := (Bay.state_of_sansFlags (x.sansFlags_unflagged p c)).trans h.1
    rw [Work.restartFlag_leaves p c h hm]
    simp [hs']
  next h =>
    rw [Work.restartFlag_stays p c fun hs => Bay.releaseCondition_unflagged p c (hr hs) ?_]
    simp only [Bay.restsOn, hs, true_and, not_and_or, Bool.not_eq_false] at h
    exact h

/-- What PORT RESTART leaves of a bay (R17, R161). -/
theorem Work.restartFlag_bay (p : Port) (c : Ctx) {x : Bay} (hr : x.state = .released → x.releaseCondition = true)
    (hd : x.detailsFollowState = true) (hl : x.linesFollowState = true) :
    let y := (Work.restartFlag p c ⟨x, []⟩).bay
    y.flag p = false ∧ x.KeepsInputs y ∧ x.KeepsSpeed y ∧
      (y.tries, y.retry, y.lastPark, y.fault, y.cause, y.spin) =
        (x.tries, x.retry, x.lastPark, x.fault, x.cause, x.spin) ∧
      if x.restsOn p then y.state = .idle ∧ y.since = c.now
      else y.state = x.state ∧ y.since = x.since ∧ y.flag p.peer = x.flag p.peer := by
  intro y
  have hk := Bay.KeepsInputs.of_sansFlags (x.sansFlags_unflagged p c)
  have hsp := Bay.KeepsSpeed.of_sansFlags (x.sansFlags_unflagged p c)
  have hz := x.sansFlags_unflagged p c
  simp only [Bay.sansFlags, Bay.mk.injEq] at hz
  split
  next h =>
    have hm := ((Bay.releaseCondition_iff x).mp (hr h.1)).1
    have hy : y = _ := congrArg Work.bay (Work.restartFlag_leaves p c h hm)
    have hg : Work.Goes c ⟨x.unflagged p c, []⟩ ((Work.edit (Bay.dropSpin c) ⟨x.unflagged p c, []⟩).enter c .idle) :=
      Work.Goes.stay.dropSpin.reach _ (by decide)
    simp only [Bay.detailsFollowState, Bay.linesFollowState, h.1] at hd hl
    rw [hy]
    refine ⟨hg.flag_of_clear (by simp), hk.trans hg.inputs, hsp.trans hg.speed, ?_, by simp, by simp⟩
    simp_all
  next h =>
    have hstay : Work.restartFlag p c ⟨x, []⟩ = ⟨x.unflagged p c, []⟩ := by
      refine Work.restartFlag_stays p c fun hs => Bay.releaseCondition_unflagged p c (hr hs) ?_
      simp only [Bay.restsOn, hs, true_and, not_and_or, Bool.not_eq_false] at h
      exact h
    have hy : y = x.unflagged p c := congrArg Work.bay hstay
    rw [hy]
    refine ⟨by simp, hk, hsp, ?_, Bay.state_of_sansFlags (x.sansFlags_unflagged p c), ?_, by simp⟩
    all_goals simp_all

/-- Entries to IDLE of bays out of the queue leave it as it is (R99). -/
theorem Arbiter.onBayFacts_queue_of_idle (bs : List BayNo) (fs : BayNo → List Fact) (a : Arbiter)
    (h : ∀ b ∈ bs, fs b = [] ∨ fs b = [.entered .idle] ∧ b ∉ a.queue) :
    (bs.foldl (fun a b => (fs b).foldl (fun a x => a.onFact b x) a) a).queue = a.queue := by
  induction bs generalizing a with
  | nil => rfl
  | cons b bs ih =>
    have hb : ((fs b).foldl (fun a x => a.onFact b x) a).queue = a.queue := by
      obtain hb | ⟨hb, hq⟩ := h b (List.mem_cons_self ..)
      · rw [hb]; rfl
      · rw [hb]; exact List.erase_of_not_mem hq
    rw [List.foldl_cons, ih _ fun c hc => by rw [hb]; exact h c (List.mem_cons_of_mem _ hc), hb]

/-- Facts that mark no bay changed leave a port as it is (R183). -/
theorem PortUnit.onBayFacts_of_unmarked (bs : List BayNo) (fs : BayNo → List Fact) (u : PortUnit)
    (h : ∀ b ∈ bs, ∀ f ∈ fs b, f.marksChanged = false) :
    bs.foldl (fun u b => (fs b).foldl (fun u x => u.onFact b x) u) u = u := by
  have hfacts : ∀ (b : BayNo) (l : List Fact) (u : PortUnit), (∀ f ∈ l, f.marksChanged = false) →
      l.foldl (fun u x => u.onFact b x) u = u := by
    intro b l
    induction l with
    | nil => intros; rfl
    | cons f l ih =>
      intro u hl
      rw [List.foldl_cons, PortUnit.onFact_eq, hl f (List.mem_cons_self ..), if_neg (by simp)]
      exact ih u fun g hg => hl g (List.mem_cons_of_mem _ hg)
  induction bs generalizing u with
  | nil => rfl
  | cons b bs ih =>
    rw [List.foldl_cons, hfacts b _ u (h b (List.mem_cons_self ..))]
    exact ih u fun c hc => h c (List.mem_cons_of_mem _ hc)

/-- An event that ends none of the outstanding requests changes nothing more. -/
theorem Event.finish_of_none (e : Event)
    (h : ∀ p, ∀ r ∈ (e.st.port p).outstanding, eventEnding p e.facts r = none) : e.finish = e.st := by
  unfold Event.finish
  rw [State.endRequests_none _ _ _ (h .a), State.endRequests_none _ _ _ (h .b)]

/-- A bay that left RELEASED for IDLE ends no request that stood (R163, R179). -/
theorem factEnding_idle_of_stands {s : State} {p : Port} {r : Request} {b : BayNo} (h : s.requestStands p r = true)
    (hs : (s.bay b).state = .released) : factEnding p r (b, .entered .idle) = none := by
  unfold factEnding
  split
  next c level hk =>
    split
    next hb =>
      subst hb
      rw [State.requestStands, hk] at h
      cases level <;> simp_all [waitEnding, Demand.metBy, waitStates]
    next => rfl
  next => split <;> rfl
  all_goals rfl

end Sys2Proof.Machine

namespace Sys2Proof
open Machine

/-- Settles O31: the bays that leave RELEASED enter IDLE and stay there, and nothing else hears of it. -/
theorem portRestartIsLocal : Obligations.PortRestartIsLocal := by
  intro s dt p hs hsound leaves
  obtain ⟨-, ⟨⟨-, hqueue⟩, -⟩, -, ⟨hstands, hreleased, -, -⟩, -, hbays⟩ := hsound
  set u := (s.advance dt).setPort p ((s.advance dt).port p).restart with hu
  set e := u.event.onBays bayNos (Work.restartFlag p) with he
  have hexec : exec (.portRestart dt p) s = .next (e.finish.reply p 0 .accepted) :=
    congrArg Host.Outcome.next (State.takeCommand_started p _ (s.advance dt) hs)
  have hnodup : bayNos.Nodup := by decide
  have hubay : ∀ b, u.bay b = s.bay b := fun b => by simp [hu]
  have hfacts : ∀ b, u.event.bayFacts (Work.restartFlag p) b = if leaves b then [.entered .idle] else [] := by
    intro b
    rw [Event.bayFacts, State.event_st, hubay b, Work.restartFlag_facts p u.ctx (hreleased b)]
  have hport : ∀ q, e.st.port q = u.port q := by
    intro q
    rw [he, Event.onBays_port _ _ _ hnodup, PortUnit.onBayFacts_of_unmarked _ _ _ fun b _ f hf => ?_]
    · rfl
    · rw [hfacts b] at hf
      split at hf
      · rw [List.mem_singleton.mp hf]; rfl
      · cases hf
  have hfinish : e.finish = e.st := by
    refine e.finish_of_none fun q r hr => ?_
    rw [hport] at hr
    have hq : r ∈ (s.port q).outstanding := by
      by_cases hqp : q = p
      · rw [hqp, hu, State.port_setPort] at hr; cases hr
      · have hqp : q = p.peer := by cases p <;> cases q <;> first | rfl | exact absurd rfl hqp
        rw [hqp] at hr ⊢
        simpa [hu] using hr
    refine List.findSome?_eq_none_iff.mpr ?_
    rintro ⟨b, f⟩ hf
    rw [he, Event.onBays_facts _ _ _ hnodup, show u.event.facts = [] from rfl, List.nil_append] at hf
    obtain ⟨c, -, hf⟩ := List.mem_flatMap.mp hf
    obtain ⟨g, hg, heq⟩ := List.mem_map.mp hf
    cases heq
    rw [hfacts b] at hg
    split at hg
    next hb =>
      rw [List.mem_singleton.mp hg]
      exact factEnding_idle_of_stands (hstands q (by cases q <;> simp) r hq) hb.1
    next => cases hg
  rw [hfinish] at hexec
  have hspec := State.reply_spec p 0 .accepted e.st
  have hframe := Event.onBays_frame bayNos (Work.restartFlag p) u.event
  have harb := Event.onBays_arbiter (Work.restartFlag p) bayNos u.event hnodup
  have hrest := Arbiter.onBayFacts_rest bayNos (u.event.bayFacts (Work.restartFlag p)) u.arbiter
  have hq := Arbiter.onBayFacts_queue_of_idle bayNos (u.event.bayFacts (Work.restartFlag p)) u.arbiter fun b _ => by
    rw [hfacts b]
    by_cases hb : leaves b
    · exact .inr ⟨if_pos hb, fun hmem => by
        have hst := (hqueue b).mp (by simpa [hu] using hmem)
        rw [hb.1] at hst; cases hst⟩
    · exact .inl (if_neg hb)
  have howed := Arbiter.onBayFacts_evalOwed bayNos (u.event.bayFacts (Work.restartFlag p)) u.arbiter
  rw [← he] at hframe harb
  simp only [Prod.mk.injEq] at hframe
  obtain ⟨-, hreceiver, hmotion, hshared, hstore, hpending, hdraws⟩ := hframe
  refine ⟨_, hexec, by simp [he, hu], ?_, ?_, ?_, ?_, ?_, fun b => ?_⟩
  · rw [hspec.port, hport, hu, State.port_setPort]
    simp [PortUnit.restart, AnswerCode.byte]
  · rw [hspec.port, hport, hu, State.port_setPort]
    rfl
  · rw [hspec.peer, hport, hu]
    simp
  · rw [hspec.receiver, hspec.motion, hspec.shared, hspec.store, hspec.pending, hspec.draws, hreceiver, hmotion, hshared,
      hstore, hpending, hdraws]
    simp [hu]
  · rw [hspec.arbiter, harb]
    refine hrest.trans ?_
    rw [hq, howed]
    have hany : (bayNos.any fun b => decide (entries (u.event.bayFacts (Work.restartFlag p) b) ≠ [])) =
        decide (∃ b, leaves b) := by
      rw [Bool.eq_iff_iff, List.any_eq_true, decide_eq_true_iff]
      refine exists_congr fun b => ?_
      rw [hfacts b]
      by_cases hb : leaves b <;> simp [hb]
    rw [hany, hu]
    simp
  · obtain ⟨hdetails, hlines, -⟩ := hbays b
    have hbay : (e.st.reply p 0 .accepted).bay b = (Work.restartFlag p u.ctx ⟨s.bay b, []⟩).bay := by
      rw [State.bay_reply, he, Event.onBays_bay _ _ _ hnodup, if_pos (mem_bayNos b), State.event_st, hubay b]
    rw [hbay]
    have hnow : u.ctx.now = s.now + dt := by simp [hu, State.ctx]
    rw [← hnow]
    exact Work.restartFlag_bay p u.ctx (hreleased b) hdetails hlines

end Sys2Proof
end

section
/-!
The ways of a bay: the states it enters in one event, entry by entry (R31, R40, R41, R43, R92).
-/

namespace Sys2Proof.Machine

/-! ### The entries -/

/-- The ways to rest: IDLE, and on from there where a condition holds (R31, R159). -/
def Bay.restWay (x : Bay) : List BayState := if x.restExit = .idle then [.idle] else [.idle, x.restExit]

/-- The ways to SPUN from a bay whose heads were parked just now (R40, R41). -/
def Bay.spunWay (m : Motion) (x : Bay) : List BayState :=
  if x.spunExit m = .loading then [.spun, .loading] else [x.spunExit m]

/-- The spindle turns under power: its stop is yet to be seen (R26, R71). -/
structure Bay.Turns (x : Bay) : Prop where
  spin : x.spin = true
  restMark : x.restMark = false

theorem Bay.turns_of {x : Bay} (hl : x.linesFollowState = true) (hm : x.monitorHolds = true)
    (hs : x.state ∈ [.spinningUp, .spun, .loading, .ready, .unloading] ∨ x.state = .retracting ∧ x.cause ≠ some .clear) :
    x.Turns := by
  have hspin : x.spin = true := by
    obtain hs | ⟨hs, hc⟩ := hs
    · simp only [List.mem_cons, List.not_mem_nil, or_false] at hs
      obtain hs | hs | hs | hs | hs := hs <;> simp only [Bay.linesFollowState, hs, Bool.and_eq_true] at hl <;>
        simp only [hl]
    · simp [Bay.linesFollowState, hs, hc] at hl
      simp only [hl]
  exact ⟨hspin, Bay.restMark_of_spin hm hspin⟩

theorem Bay.KeepsInputs.spunExit {x y : Bay} (h : x.KeepsInputs y) (m : Motion) : y.spunExit m = x.spunExit m := by
  simp only [Bay.spunExit, h.fltOn, h.merged, h.ejectorOpen, h.timing]

section
variable (c : Ctx) (w : Work)

@[simp] theorem Work.toFaulted_entries (kind : FaultKind) (keepSpin : Bool) :
    entries (w.toFaulted c kind keepSpin).facts = entries w.facts ++ [.faulted] := by
  unfold Work.toFaulted
  cases keepSpin <;> simp

@[simp] theorem Work.toReleased_entries : entries (w.toReleased c).facts = entries w.facts ++ [.released] := by
  simp [Work.toReleased]

@[simp] theorem Work.toQueued_entries : entries (w.toQueued c).facts = entries w.facts ++ [.queued] := by
  simp [Work.toQueued]

@[simp] theorem Work.toReady_entries : entries (w.toReady c).facts = entries w.facts ++ [.ready] := by
  simp [Work.toReady]

@[simp] theorem Work.toRetracting_entries (cause : Cause) :
    entries (w.toRetracting c cause).facts = entries w.facts ++ [.retracting] := by
  simp [Work.toRetracting]

theorem Bay.restExit_eq (x : Bay) :
    x.restExit = if x.releaseCondition then .released else if x.joins then .queued else .idle := rfl

theorem Work.idleTest_entries :
    entries (w.idleTest c).facts =
      entries w.facts ++ if w.bay.restExit = .idle then [] else [w.bay.restExit] := by
  rw [Bay.restExit_eq]
  obtain ⟨h, e⟩ | ⟨h, h', e⟩ | ⟨h, h', e⟩ := w.idleTest_cases c <;> rw [e] <;> simp [h]
  · simp [h']
  · simp [h']

theorem Bay.restExit_entered (st : BayState) {x : Bay} (h : x.state = .released → x.releaseCondition = false) :
    (((x.dropSpin c).entering c st).relight c).restExit = x.restExit := by
  rw [Bay.restExit_eq, Bay.restExit_eq, Bay.joins_entered]
  by_cases hs : x.state = .released
  · rw [Bay.releaseCondition_left c st (h hs), h hs]
  · rw [Bay.releaseCondition_entered c st hs]

theorem Work.toIdle_entries (h : w.bay.state = .released → w.bay.releaseCondition = false) :
    entries (w.toIdle c).facts = entries w.facts ++ w.bay.restWay := by
  unfold Work.toIdle Bay.restWay
  rw [Work.idleTest_entries, Work.enter_bay, Work.edit_bay, Bay.restExit_entered c _ h]
  split <;> simp

variable {c w}

theorem Work.toSpinningDown_entries (mayWatch : Bool) (h : w.bay.Turns) :
    entries (w.toSpinningDown c mayWatch).facts = entries w.facts ++ [.spinningDown] := by
  rw [Work.toSpinningDown_of_spin c mayWatch h.spin h.restMark]
  simp

theorem Work.toLoading_entries (hk : w.bay.prkOn = true) :
    entries (w.toLoading c).facts = entries w.facts ++ [.loading] := by
  simp [Work.toLoading, hk]

/-- Where the tests of SPUN lead (R40). -/
theorem Work.spunTest_entries (h : w.bay.Turns) (hk : w.bay.prkOn = true) :
    entries (w.spunTest c).facts = entries w.facts ++
      if w.bay.mustSpinDown c then [.spinningDown] else if w.bay.mayLoad c then [.loading] else [] := by
  obtain ⟨hm, e⟩ | ⟨hm, hl, e⟩ | ⟨hm, hl, e⟩ := w.spunTest_cases c <;> rw [e]
  · simp [hm, Work.toSpinningDown_entries false h]
  · simp [hm, hl, Work.toLoading_entries hk]
  · simp [hm, hl]

/-- Where an entry to SPUN leads (R41). -/
theorem Work.toSpun_entries (h : w.bay.Turns) (fromSpinup : Bool) (hk : fromSpinup = true ∨ w.bay.prkOn = true) :
    entries (w.toSpun c fromSpinup).facts = entries w.facts ++
      if w.bay.fltOn then [.faulted]
      else if w.bay.mustSpinDown c then [.spinningDown]
      else if w.bay.prkOn = false then [.spun, .retracting]
      else if w.bay.mayLoad c then [.spun, .loading] else [.spun] := by
  unfold Work.toSpun
  split
  · simp
  split
  · simp [Work.toSpinningDown_entries false h]
  next hdown =>
    have hturns : (w.enter c .spun).bay.Turns := ⟨by simpa using h.spin, by simpa using h.restMark⟩
    have hdown' : (w.enter c .spun).bay.mustSpinDown c = false := by simpa [Bay.mustSpinDown] using hdown
    have hload : (w.enter c .spun).bay.mayLoad c = w.bay.mayLoad c := by
      simp [Bay.mayLoad, Bay.dwellPassed]
    dsimp only
    cases hprk : w.bay.prkOn with
    | false =>
      obtain hs | hk := hk
      · simp [hs, hprk]
      · rw [hprk] at hk; cases hk
    | true =>
      rw [if_neg (by simp [hprk]), Work.spunTest_entries hturns (by simpa using hprk), hdown', hload]
      cases w.bay.mayLoad c <;> simp

/-- Right after a park only a HEAD_DWELL of 0 lets a load through (R40, R78). -/
theorem Bay.mayLoad_of_parked {x : Bay} (hp : x.lastPark = some (millis c.now)) :
    x.mayLoad c = (x.merged = .load && c.motion = .quiet && x.timing.headDwell = 0 && !x.ejectorOpen) := by
  simp [Bay.mayLoad, Bay.dwellPassed, hp]

/-- The exit of `spunExit` is that of an entry to SPUN right after a park (R41). -/
theorem Work.toSpun_entries_parked (h : w.bay.Turns) (hk : w.bay.prkOn = true)
    (hp : w.bay.lastPark = some (millis c.now)) :
    entries (w.toSpun c false).facts = entries w.facts ++ w.bay.spunWay c.motion := by
  rw [Work.toSpun_entries h false (.inr hk), Bay.mayLoad_of_parked hp]
  unfold Bay.spunWay Bay.spunExit Bay.mustSpinDown
  cases w.bay.fltOn
  · by_cases hd : (w.bay.merged = .stop || w.bay.ejectorOpen || c.motion = .transit) = true
    · simp [hd]
    · have he : w.bay.ejectorOpen = false := by simp at hd; simp [hd]
      simp only [hd, hk]
      simp only [he, Bool.not_false, Bool.and_true]
      by_cases hl : (w.bay.merged = .load && c.motion = .quiet && w.bay.timing.headDwell = 0) = true <;> simp [hl]
  · simp

theorem Work.toUnloading_entries (h : w.bay.Turns) :
    entries (w.toUnloading c).facts = entries w.facts ++
      .unloading :: if w.bay.prkOn then w.bay.spunWay c.motion else [] := by
  unfold Work.toUnloading
  dsimp only
  cases hk : w.bay.prkOn with
  | true =>
    have hin := ((Work.Goes.stay (c := c) (w := w)).reach .unloading (by decide)).inputs
    have hway : ∀ due, Bay.spunWay c.motion (Bay.park c { (w.enter c .unloading).bay with headTimer := due }) =
        w.bay.spunWay c.motion := fun _ => by
      simp only [Bay.spunWay, ← hin.spunExit c.motion]
      rfl
    rw [if_pos (by simpa using hk), Work.toSpun_entries_parked ⟨by simpa using h.spin, by simpa using h.restMark⟩
      (by simpa using hk) (by simp)]
    exact (congrArg (_ ++ ·) (hway _)).trans (by simp)
  | false =>
    rw [if_neg (by simp [hk])]
    simp

end

end Sys2Proof.Machine
end

section
/-!
The ways of a bay whose demand column is written (R8, R31, R32, R37, R40, R45, R82, R83, R85, R160, R161).
-/

namespace Sys2Proof.Machine

/-- The ways to SPINNING_DOWN, and on to rest where the spindle is known to be at rest (R43, R72). -/
def BayState.waysDown : List (List BayState) :=
  [[.spinningDown], [.spinningDown, .idle], [.spinningDown, .idle, .queued], [.spinningDown, .idle, .released]]

/-- The ways a bay may go in one event of its own, by the state it stands in: the states it enters, in order. -/
def BayState.ways : BayState → List (List BayState)
  | .empty => [[], [.idle], [.idle, .released], [.released]]
  | .idle => [[], [.released], [.queued], [.empty]]
  | .queued => [[], [.idle], [.idle, .released], [.spinningUp], [.faulted], [.empty]]
  | .spinningUp => [[], [.faulted], [.spun], [.spun, .loading], [.spun, .retracting], [.empty]] ++ waysDown
  | .spun => [[], [.loading], [.faulted], [.retracting], [.empty]] ++ waysDown
  | .loading =>
    [[], [.ready], [.unloading], [.unloading, .faulted], [.unloading, .spun], [.faulted], [.spun], [.retracting],
     [.empty]] ++ waysDown ++ waysDown.map fun l => .unloading :: l
  | .ready =>
    [[], [.unloading], [.unloading, .faulted], [.unloading, .spun], [.unloading, .spun, .loading], [.faulted], [.spun],
     [.spun, .loading], [.retracting], [.empty]] ++ waysDown ++ waysDown.map fun l => .unloading :: l
  | .unloading => [[], [.retracting], [.faulted], [.spun], [.spun, .loading], [.empty]] ++ waysDown
  | .retracting => [[], [.faulted], [.spun], [.spun, .loading], [.empty]] ++ waysDown
  | .spinningDown => [[], [.idle], [.idle, .queued], [.idle, .released], [.faulted], [.empty]]
  | .faulted => [[], [.retracting], [.empty]] ++ waysDown
  | .released => [[], [.idle], [.idle, .queued], [.faulted], [.empty]]

theorem Bay.restExit_mem (x : Bay) : x.restExit ∈ [.released, .queued, .idle] := by
  rw [Bay.restExit_eq]
  split
  · simp
  · split <;> simp

theorem Bay.restWay_mem (x : Bay) : x.restWay ∈ [[.idle], [.idle, .queued], [.idle, .released]] := by
  have h := x.restExit_mem
  unfold Bay.restWay
  generalize x.restExit = st at h
  revert st
  decide

theorem Bay.restExit_of_stop {x : Bay} (h : x.merged = .stop) : x.restExit ∈ [.released, .idle] := by
  rw [Bay.restExit_eq]
  have hj : x.joins = false := by simp [Bay.joins, h]
  rw [hj]
  split <;> simp

theorem Bay.restWay_of_stop {x : Bay} (h : x.merged = .stop) : x.restWay ∈ [[.idle], [.idle, .released]] := by
  have h := Bay.restExit_of_stop h
  unfold Bay.restWay
  generalize x.restExit = st at h
  revert st
  decide

theorem Bay.restWay_getLastD (x : Bay) (st : BayState) : x.restWay.getLastD st = x.restExit := by
  unfold Bay.restWay
  split
  next h => exact h.symm
  next => rfl

theorem Bay.spunExit_mem (m : Motion) (x : Bay) : x.spunExit m ∈ [.faulted, .spinningDown, .loading, .spun] := by
  unfold Bay.spunExit
  split
  · simp
  split
  · simp
  split <;> simp

/-- A bay that asks for no load, or may not have it, does not load (R40). -/
theorem Bay.spunWay_of_no_load {m : Motion} {x : Bay} (h : x.merged ≠ .load ∨ m ≠ .quiet) :
    x.spunWay m = [x.spunExit m] ∧ x.spunExit m ∈ [.faulted, .spinningDown, .spun] := by
  have hne : x.spunExit m ≠ .loading := by
    unfold Bay.spunExit
    split
    · simp
    split
    · simp
    rw [if_neg (by simp only [Bool.and_eq_true, decide_eq_true_eq]; tauto)]
    simp
  refine ⟨if_neg hne, ?_⟩
  have hm := x.spunExit_mem m
  simp only [List.mem_cons, List.not_mem_nil, or_false] at hm ⊢
  tauto

/-- What of a sound bay the sequencer's responses rest on (R26, R71, R82). -/
structure Bay.Stands (m : Motion) (x : Bay) : Prop where
  allowed : x.stateAllowed m = true
  lines : x.linesFollowState = true
  monitor : x.monitorHolds = true

/-- A bay without its columns, flags and LED: what a write of a column leaves. -/
def Bay.sansDemands (x : Bay) : Bay := { x.sansFlags with demandA := .stop, demandB := .stop }

/-- What a rewritten bay keeps for the sequencer. -/
theorem Bay.keeps_of_sansDemands {x y : Bay} (h : y.sansDemands = x.sansDemands) :
    y.state = x.state ∧ y.fltOn = x.fltOn ∧ y.ejectorOpen = x.ejectorOpen ∧ y.prkOn = x.prkOn ∧ (x.Turns → y.Turns) := by
  simp only [Bay.sansDemands, Bay.sansFlags, Bay.mk.injEq] at h
  refine ⟨?_, ?_, ?_, ?_, fun hx => ?_⟩
  · simp only [h]
  · simp only [h]
  · simp only [h]
  · simp only [h]
  · obtain ⟨hspin, hrest⟩ := hx
    constructor <;> simp only [h, hspin, hrest]

/-- A bay took one of its ways in a response and came to stand where it ends. -/
def Work.Takes (w v : Work) (exit : BayState) : Prop :=
  ∃ l ∈ w.bay.state.ways, entries v.facts = entries w.facts ++ l ∧ l.getLastD w.bay.state = exit ∧
    (w.bay.state = .loading → l = [] → v.bay.phase = w.bay.phase)

section
variable {c : Ctx} {w : Work}

theorem Work.Takes.stay {v : Work} {exit : BayState} (he : w.bay.state = exit) (hf : v.facts = w.facts)
    (hp : v.bay.phase = w.bay.phase := by rfl) : w.Takes v exit :=
  ⟨[], by cases w.bay.state <;> simp [BayState.ways], by simp [hf], he, fun _ _ => hp⟩

theorem Work.Takes.way {v : Work} {st exit : BayState} {l : List BayState} (hs : w.bay.state = st) (hl : l ∈ st.ways)
    (he : entries v.facts = entries w.facts ++ l) (hx : l.getLastD st = exit) (hn : st ≠ .loading ∨ l ≠ []) :
    w.Takes v exit := by
  subst hs
  exact ⟨l, hl, he, hx, fun h h' => absurd h' (hn.resolve_left (not_not_intro h))⟩

theorem Work.Takes.idleTest {v : Work} (hs : w.bay.state = .idle) (hf : v.facts = w.facts)
    (he : v.bay.restExit = w.bay.restExit) : w.Takes (v.idleTest c) w.bay.restExit := by
  refine .way hs ?_ (by rw [Work.idleTest_entries, hf, he]) ?_ (.inl (by decide))
  · have hmem := w.bay.restExit_mem
    generalize w.bay.restExit = st at hmem
    revert st
    decide
  · split
    next h => exact h.symm
    next => rfl

/-- The heads leave the platters: to SPUN, or on to where its checks lead (R41, R83, R85, R87). -/
theorem Work.Takes.toUnloading (hs : w.bay.state = .loading ∨ w.bay.state = .ready) (ht : w.bay.Turns)
    (hl : w.bay.merged ≠ .load ∨ c.motion ≠ .quiet) :
    w.Takes (w.toUnloading c) (if w.bay.prkOn then w.bay.spunExit c.motion else .unloading) := by
  obtain ⟨hway, hexit⟩ := Bay.spunWay_of_no_load hl
  refine .way rfl ?_ (Work.toUnloading_entries ht) ?_ (.inr (by simp))
  · rw [hway]
    generalize w.bay.spunExit c.motion = st at hexit
    revert st
    obtain hs | hs := hs <;> rw [hs] <;> cases w.bay.prkOn <;> decide
  · rw [hway]
    cases w.bay.prkOn <;> rfl

/-- A write of a demand column leads a bay where `demandExit` says. -/
theorem Work.demandWritten_takes {x : Bay} (hx : x.Stands c.motion) (hz : w.bay.sansDemands = x.sansDemands)
    (hr : w.bay.state = .released → w.bay.merged = .stop → w.bay.releaseCondition = true) :
    w.Takes (w.demandWritten c x.merged) (w.bay.demandExit c.motion c.now x.merged) := by
  obtain ⟨hstate, hflt, hejector, hprk, hturns⟩ := Bay.keeps_of_sansDemands hz
  have ht : w.bay.state ∈ [.spinningUp, .spun, .loading, .ready, .unloading] → w.bay.Turns := fun hs =>
    hturns (Bay.turns_of hx.lines hx.monitor (.inl (hstate ▸ hs)))
  unfold Work.demandWritten Bay.demandExit
  dsimp only
  split
  next hst => 
    simp only [hst]
    refine Work.Takes.idleTest hst ?_ ?_ <;> split <;> rfl
  next hst =>
    simp only [hst]
    unfold Work.releasedTest
    by_cases hm : w.bay.merged = .stop
    · rw [if_pos (hr hst hm), if_pos hm]
      exact .stay hst rfl
    · have hrelease : w.bay.releaseCondition = false := by
        rw [← Bool.not_eq_true, Bay.releaseCondition_iff]
        simp [hm]
      rw [if_neg (by simp [hrelease]), if_neg hm]
      refine .way hst ?_ (Work.toIdle_entries c w fun _ => hrelease) (Bay.restWay_getLastD _ _) (.inl (by decide))
      unfold Bay.restWay
      rw [Bay.restExit_eq, hrelease]
      cases w.bay.joins <;> decide
  next hst =>
    obtain ⟨hm, -⟩ := Bay.queued_of_allowed hx.allowed (hstate ▸ hst)
    simp only [hst]
    by_cases hstop : w.bay.merged = .stop
    · have hc : x.merged ≠ w.bay.merged ∧ w.bay.merged = .stop := ⟨hstop ▸ hm, hstop⟩
      rw [if_pos hc, if_pos hc, if_pos hstop]
      refine .way hst ?_ (Work.toIdle_entries c (w.edit Bay.clearRetry) fun h => by rw [Work.edit_bay] at h; simp [hst] at h)
        (Bay.restWay_getLastD _ _) (.inl (by decide))
      have hmem := Bay.restWay_of_stop hstop
      simp only [List.mem_cons, List.not_mem_nil, or_false] at hmem
      obtain h | h := hmem <;> rw [show (w.edit Bay.clearRetry).bay.restWay = w.bay.restWay from rfl, h] <;> decide
    · rw [if_neg (fun h => hstop h.2), if_neg hstop]
      exact .stay hst rfl
  next hst =>
    obtain ⟨⟨hm, -⟩, -⟩ := Bay.spinningUp_of_allowed hx.allowed (hstate ▸ hst)
    simp only [hst]
    by_cases hstop : w.bay.merged = .stop
    · have hc : x.merged ≠ w.bay.merged ∧ w.bay.merged = .stop := ⟨hstop ▸ hm, hstop⟩
      rw [if_pos hc, if_pos hc, if_pos hstop]
      have ht := ht (by simp [hst])
      exact .way hst (by decide) (Work.toSpinningDown_entries (w := w.edit Bay.clearRetry) false ⟨ht.spin, ht.restMark⟩)
        rfl (.inl (by decide))
    · rw [if_neg (fun h => hstop h.2), if_neg hstop]
      exact .stay hst rfl
  next hst =>
    obtain ⟨⟨⟨hm, he⟩, hmotion⟩, hk⟩ := Bay.spun_of_allowed hx.allowed (hstate ▸ hst)
    simp only [hst]
    have hk : w.bay.prkOn = true := hprk.trans hk
    have he : w.bay.ejectorOpen = false := hejector.trans he
    by_cases hsame : x.merged = w.bay.merged
    · rw [if_neg (by simpa using hsame), if_neg (hsame ▸ hm), if_neg (by simp [hsame])]
      exact .stay hst rfl
    · rw [if_pos hsame]
      refine .way hst ?_ (Work.spunTest_entries (ht (by simp [hst])) hk) ?_ (.inl (by decide))
      · cases w.bay.mustSpinDown c <;> cases w.bay.mayLoad c <;> decide
      · by_cases hstop : w.bay.merged = .stop
        · simp [Bay.mustSpinDown, hstop]
        · have hload : w.bay.mayLoad c =
              (decide (w.bay.merged = .load) && decide (c.motion = .quiet) && w.bay.dwellPassed c.now) := by
            simp [Bay.mayLoad, he]
          rw [show w.bay.mustSpinDown c = false by simp [Bay.mustSpinDown, hstop, he, hmotion], if_neg hstop, hload]
          simp only [ne_comm.mp hsame, ne_eq, not_false_eq_true, decide_true, Bool.true_and, Bool.false_eq_true, if_false]
          split <;> rfl
  next hst =>
    obtain ⟨⟨hm, -⟩, -⟩ := Bay.onPlatters_of_allowed hx.allowed (.inl (hstate ▸ hst))
    simp only [hst]
    by_cases hload : w.bay.merged = .load
    · rw [if_neg (fun h => h.2 hload), if_pos hload]
      exact .stay hst rfl
    · rw [if_pos ⟨fun h => hload (h.symm.trans hm), hload⟩, if_neg hload]
      split
      · exact .way hst (by decide) (Work.toRetracting_entries c w _) rfl (.inr (by simp))
      · exact .toUnloading (.inl hst) (ht (by simp [hst])) (.inl hload)
  next hst =>
    obtain ⟨⟨hm, -⟩, -⟩ := Bay.onPlatters_of_allowed hx.allowed (.inr (hstate ▸ hst))
    simp only [hst]
    by_cases hload : w.bay.merged = .load
    · rw [if_neg (fun h => h.2 hload), if_pos hload]
      exact .stay hst rfl
    · rw [if_pos ⟨fun h => hload (h.symm.trans hm), hload⟩, if_neg hload]
      exact .toUnloading (.inr hst) (ht (by simp [hst])) (.inl hload)
  next hst =>
    simp only [hst]
    exact .stay hst (by split <;> rfl) (by split <;> rfl)
  all_goals
    next hst =>
      simp only [hst]
      exact .stay hst rfl

end

end Sys2Proof.Machine
end

section
/-!
SET DEMAND over several bays: where each goes, and the order in which bays join the queue (R6, R8, R31, R99).
-/

namespace Sys2Proof.Machine

/-! ### The record as written -/

theorem Bay.merged_eq_stop_iff_demand (x : Bay) : x.merged = .stop ↔ ∀ p, x.demand p = .stop := by
  rw [Bay.merged_eq_stop_iff]
  exact ⟨fun h p => by cases p; exacts [h.1, h.2], fun h => ⟨h .a, h .b⟩⟩

theorem Bay.setDemand_self {x : Bay} {p : Port} {d : Demand} (h : x.demand p = d) : x.setDemand p d = x := by
  subst h
  cases p <;> rfl

theorem Bay.demandExit_relight (c : Ctx) (m : Motion) (now : Micros) (old : Demand) (x : Bay) :
    (x.relight c).demandExit m now old = x.demandExit m now old := by
  unfold Bay.relight
  split <;> rfl

theorem Bay.sansDemands_written (p : Port) (level : Demand) (c : Ctx) (x : Bay) :
    (x.written p level c).sansDemands = x.sansDemands := by
  unfold Bay.written Bay.relight
  split
  · cases p <;> rfl
  · split <;> cases p <;> rfl

/-- A RELEASED bay keeps its release condition under a write of STOP, which changes nothing (R16, R159). -/
theorem Bay.releaseCondition_written (p : Port) (level : Demand) (c : Ctx) {x : Bay} (hx : x.merged = .stop)
    (hr : x.releaseCondition = true) (hm : (x.written p level c).merged = .stop) :
    (x.written p level c).releaseCondition = true := by
  unfold Bay.written at hm ⊢
  split at hm
  next hl =>
    rw [if_pos hl, Bay.setDemand_self ((Bay.merged_eq_stop_iff_demand x).mp hx p)]
    exact hr
  next hl =>
    have h := (Bay.merged_eq_stop_iff_demand _).mp hm p
    simp only [Bay.demand_relight, Bay.demand_setFlag, Bay.demand_setDemand] at h
    exact absurd h hl

/-- Where SET DEMAND leads a sound bay (R8). -/
theorem Work.writeDemand_takes (p : Port) (level : Demand) {c : Ctx} {x : Bay} (hx : x.Stands c.motion)
    (hp : x.present = true) (hr : x.state = .released → x.releaseCondition = true) :
    Work.Takes ⟨x, []⟩ (Work.writeDemand p level c ⟨x, []⟩)
      ((x.written p level c).demandExit c.motion c.now x.merged) := by
  have hz := x.sansDemands_written p level c
  obtain ⟨hstate, -⟩ := Bay.keeps_of_sansDemands hz
  have h := Work.demandWritten_takes (w := ⟨x.written p level c, writtenFacts p level⟩) hx hz fun hs hm =>
    Bay.releaseCondition_written p level c (Bay.merged_stop_of_allowed hx.allowed (.inr (hstate ▸ hs))) (hr (hstate ▸ hs)) hm
  rw [Work.writeDemand_present p level c hp]
  have hphase : (x.written p level c).phase = x.phase := by
    simp only [Bay.sansDemands, Bay.sansFlags, Bay.mk.injEq] at hz
    simp only [hz]
  obtain ⟨l, hl, he, hlast, hloads⟩ := h
  dsimp only at hl hlast hloads
  rw [hstate] at hl hlast hloads
  refine ⟨l, hl, he.trans ?_, hlast, fun hs hnil => (hloads hs hnil).trans hphase⟩
  unfold writtenFacts
  split <;> rfl

/-! ### Retry pending (R37) -/

section
variable (c : Ctx) (w : Work)

@[simp] theorem Work.idleTest_retry : (w.idleTest c).bay.retry = w.bay.retry := by
  obtain ⟨-, e⟩ | ⟨-, -, e⟩ | ⟨-, -, e⟩ := w.idleTest_cases c <;> rw [e] <;> simp [Work.toReleased, Work.toQueued]

@[simp] theorem Work.toIdle_retry : (w.toIdle c).bay.retry = w.bay.retry := by
  simp [Work.toIdle]

@[simp] theorem Work.toSpinningDown_retry (mayWatch : Bool) : (w.toSpinningDown c mayWatch).bay.retry = w.bay.retry := by
  obtain ⟨-, -, e⟩ | ⟨-, e⟩ := w.toSpinningDown_cases c mayWatch <;> rw [e] <;> simp

@[simp] theorem Work.toLoading_retry : (w.toLoading c).bay.retry = w.bay.retry := by
  unfold Work.toLoading
  dsimp only
  split
  · simp
  · unfold Work.startSettle
    split <;> simp [Work.toReady]

@[simp] theorem Work.spunTest_retry : (w.spunTest c).bay.retry = w.bay.retry := by
  obtain ⟨-, e⟩ | ⟨-, -, e⟩ | ⟨-, -, e⟩ := w.spunTest_cases c <;> rw [e] <;> simp

@[simp] theorem Work.toRetracting_retry (cause : Cause) : (w.toRetracting c cause).bay.retry = w.bay.retry := by
  simp [Work.toRetracting]

variable {c w}

theorem Work.toSpun_retry (fromSpinup : Bool) (h : w.bay.fltOn = false) :
    (w.toSpun c fromSpinup).bay.retry = w.bay.retry := by
  unfold Work.toSpun
  rw [if_neg (by simp [h])]
  split
  · simp
  · dsimp only
    split <;> simp

theorem Work.toUnloading_retry (h : w.bay.fltOn = false) : (w.toUnloading c).bay.retry = w.bay.retry := by
  unfold Work.toUnloading
  dsimp only
  split
  · rw [Work.toSpun_retry false (by simpa using h)]
    simp
  · simp

/-- A merged demand that falls to STOP clears retry pending in the states that hold one (R32, R37, R45). -/
theorem Work.demandWritten_retry {x : Bay} (hx : x.stateAllowed c.motion = true)
    (hz : w.bay.sansDemands = x.sansDemands) :
    (w.demandWritten c x.merged).bay.retry =
      if x.merged ≠ .stop ∧ w.bay.merged = .stop ∧ w.bay.state ∈ [.idle, .queued, .spinningUp, .spinningDown] then false
      else w.bay.retry := by
  obtain ⟨hstate, hflt, -⟩ := Bay.keeps_of_sansDemands hz
  have hf : w.bay.state ∉ [.empty, .idle, .released, .retracting, .faulted] → w.bay.fltOn = false := fun hn =>
    hflt.trans (Bay.fltOn_of_allowed hx (hstate ▸ hn))
  have hfall : (x.merged ≠ w.bay.merged ∧ w.bay.merged = .stop) ↔ (x.merged ≠ .stop ∧ w.bay.merged = .stop) :=
    and_congr_left fun h => by rw [h]
  rw [if_congr (and_assoc.symm.trans (and_congr_left fun _ => hfall.symm)) rfl rfl]
  unfold Work.demandWritten
  dsimp only
  by_cases hc : x.merged ≠ w.bay.merged ∧ w.bay.merged = .stop
  · simp only [if_pos hc]
    split
    case h_5 hst => simp [hst, hc.1]
    case h_6 hst =>
      rw [if_pos ⟨hc.1, by rw [hc.2]; decide⟩]
      split <;> simp [hst, Work.toUnloading_retry (hf (by simp [hst]))]
    case h_7 hst =>
      rw [if_pos ⟨hc.1, by rw [hc.2]; decide⟩]
      simp [hst, Work.toUnloading_retry (hf (by simp [hst]))]
    case h_2 hst =>
      unfold Work.releasedTest
      split <;> simp [hst]
    all_goals
      next hst => simp [hst, (hfall.mp hc).1, hc.2, Bay.clearRetry]
  · simp only [if_neg hc]
    refine Eq.trans ?_ (if_neg fun h => hc h.1).symm
    split
    · simp
    · unfold Work.releasedTest
      split <;> simp
    · rfl
    · rfl
    · split <;> simp
    case h_6 hst =>
      split
      · split <;> simp [Work.toUnloading_retry (hf (by simp [hst]))]
      · rfl
    case h_7 hst =>
      split <;> simp [Work.toUnloading_retry (hf (by simp [hst]))]
    all_goals rfl

end

/-! ### The queue after several bays (R99, R100) -/

theorem getLast_cons_eq_getLastD {α : Type} (a : α) (l : List α) : (a :: l).getLast (by simp) = l.getLastD a := by
  obtain rfl | ⟨l, x, rfl⟩ := l.eq_nil_or_concat <;> simp

/-- The bays that leave QUEUED leave the queue, those that reach it stand at its back in the order in which they acted. -/
theorem Arbiter.onBayFacts_queue (bs : List BayNo) (fs : BayNo → List Fact) (st₀ st : BayNo → BayState) (a : Arbiter)
    (hbs : bs.Nodup) (hn : a.queue.Nodup) (hmem : ∀ b ∈ bs, b ∈ a.queue ↔ st₀ b = .queued)
    (hst : ∀ b ∈ bs, st b = (entries (fs b)).getLastD (st₀ b)) (hstay : ∀ b ∈ bs, st b = st₀ b → entries (fs b) = []) :
    (bs.foldl (fun a b => (fs b).foldl (fun a x => a.onFact b x) a) a).queue =
      a.queue.filter (fun b => b ∉ bs ∨ st b = .queued) ++ bs.filter fun b => st₀ b ≠ .queued ∧ st b = .queued := by
  induction bs generalizing a with
  | nil => simp
  | cons b bs ih =>
    obtain ⟨hb, hbs⟩ := List.nodup_cons.mp hbs
    have hmemb := hmem b (List.mem_cons_self ..)
    have hstayb := hstay b (List.mem_cons_self ..)
    have hq := Arbiter.onFacts_queue_of_last b (fs b) a hn (st := st b) (st₀ := st₀ b)
      ((hst b (List.mem_cons_self ..)).trans (getLast_cons_eq_getLastD _ _).symm)
    have hne : ∀ c ∈ bs, c ≠ b := fun c hc h => hb (h ▸ hc)
    have hn' : ((fs b).foldl (fun a x => a.onFact b x) a).queue.Nodup := by
      rw [hq]
      split
      · exact hn
      split
      · exact List.nodup_append.mpr ⟨hn.erase b, by simp, fun c hc d hd => by
          rintro rfl; rw [List.mem_singleton.mp hd] at hc; exact hn.not_mem_erase hc⟩
      · exact hn.erase b
    rw [List.foldl_cons, ih _ hbs hn' ?_ (fun c hc => hst c (List.mem_cons_of_mem _ hc))
      (fun c hc => hstay c (List.mem_cons_of_mem _ hc)), hq]
    · have herase : a.queue.erase b = a.queue.filter fun c => c ≠ b := by
        rw [hn.erase_eq_filter]
        exact List.filter_congr fun c _ => by simp [bne, Bool.beq_eq_decide_eq]
      by_cases hs : st b = .queued
      · have hkeep : a.queue.filter (fun c => c ∉ b :: bs ∨ st c = .queued) =
            a.queue.filter fun c => c ∉ bs ∨ st c = .queued := by
          refine List.filter_congr fun c _ => ?_
          by_cases hc : c = b
          · simp [hc, hs]
          · simp [hc]
        rw [hkeep]
        by_cases hs₀ : st₀ b = .queued
        · rw [if_pos (hstayb (hs.trans hs₀.symm)), List.filter_cons_of_neg (by simp [hs₀])]
        · have hout : b ∉ a.queue := fun h => hs₀ (hmemb.mp h)
          have hentered : entries (fs b) ≠ [] := fun h => by
            have hlast := hst b (List.mem_cons_self ..)
            rw [h, hs] at hlast
            exact hs₀ hlast.symm
          rw [if_neg hentered, if_pos hs, List.erase_of_not_mem hout, List.filter_append,
            List.filter_cons_of_pos (by simp [hs]), List.filter_nil, List.filter_cons_of_pos (by simp [hs, hs₀]),
            List.append_assoc]
          rfl
      · have hdrop : a.queue.filter (fun c => c ∉ b :: bs ∨ st c = .queued) =
            (a.queue.erase b).filter fun c => c ∉ bs ∨ st c = .queued := by
          rw [herase, List.filter_filter]
          refine List.filter_congr fun c _ => ?_
          by_cases hc : c = b
          · simp [hc, hs]
          · simp [hc]
        rw [hdrop, List.filter_cons_of_neg (by simp [hs]), if_neg hs]
        split
        next hnone =>
          have hsame : st b = st₀ b := by
            have hlast := hst b (List.mem_cons_self ..)
            rwa [hnone] at hlast
          rw [List.erase_of_not_mem fun h => hs (hsame.trans (hmemb.mp h))]
        next => rfl
    · intro c hc
      rw [Arbiter.onFacts_mem b c _ _ (hne c hc)]
      exact hmem c (List.mem_cons_of_mem _ hc)

end Sys2Proof.Machine
end

section
/-!
SET DEMAND: what becomes of its bays and of the queue (R6, R8, R31, R37, R99, R107).
-/

namespace Sys2Proof.Machine

/-- The queue after several bays acted: what is left of it, and the bays that joined, in ascending order (R99, R100). -/
theorem Event.onBays_queue (a : Act) (s : State) (mask : Byte) (hq : s.queueMatches)
    (hstay : ∀ b ∈ maskBays mask, (a.run s.ctx ⟨s.bay b, []⟩).bay.state = (s.bay b).state →
      entries (a.run s.ctx ⟨s.bay b, []⟩).facts = []) :
    let t := (s.event.onBays (maskBays mask) a.run).st
    t.arbiter.queue = s.arbiter.queue.filter (fun b => (t.bay b).state = .queued) ++
      bayNos.filter fun b => (s.bay b).state ≠ .queued ∧ (t.bay b).state = .queued := by
  intro t
  have hbay : ∀ b, t.bay b = if b ∈ maskBays mask then (a.run s.ctx ⟨s.bay b, []⟩).bay else s.bay b :=
    Event.onBays_bay _ _ s.event (maskBays_nodup mask)
  have harb := Event.onBays_arbiter a.run (maskBays mask) s.event (maskBays_nodup mask)
  have hqueue := Arbiter.onBayFacts_queue (maskBays mask) (s.event.bayFacts a.run) (fun b => (s.bay b).state)
    (fun b => (a.run s.ctx ⟨s.bay b, []⟩).bay.state) s.arbiter (maskBays_nodup mask) hq.1 (fun b _ => hq.2 b)
    (fun b _ => (a.run_state s.ctx (s.bay b)).trans (getLast_cons_eq_getLastD _ _)) hstay
  refine (congrArg Arbiter.queue harb).trans (hqueue.trans (congrArg₂ (· ++ ·) ?_ ?_))
  · refine List.filter_congr fun b hb => ?_
    rw [hbay b]
    split
    next h => simp [h]
    next h => simp [h, (hq.2 b).mp hb]
  · rw [maskBays, List.filter_filter]
    refine List.filter_congr fun b _ => ?_
    rw [hbay b]
    by_cases h : b ∈ maskBays mask
    · rw [if_pos h, (mem_maskBays mask b).mp h, Bool.and_true]
    · rw [if_neg h, Bool.eq_false_iff.mpr fun hb => h ((mem_maskBays mask b).mpr hb)]
      simp

/-- A resting bay that may join does so (R31). -/
theorem Work.writeDemand_joins (p : Port) {level : Demand} (c : Ctx) {x : Bay} (hs : x.state = .idle)
    (hp : x.present = true) (he : x.ejectorOpen = false) (hf : x.fltOn = false) (hl : level ≠ .stop) :
    Work.writeDemand p level c ⟨x, []⟩ = Work.toQueued c ⟨x.written p level c, writtenFacts p level⟩ := by
  obtain ⟨hstate, hflt, hejector, -⟩ := Bay.keeps_of_sansDemands (x.sansDemands_written p level c)
  have hm : (x.written p level c).merged ≠ .stop := by
    intro h
    have h := (Bay.merged_eq_stop_iff_demand _).mp h p
    simp [Bay.written, hl] at h
  have hr : (x.written p level c).releaseCondition = false := by
    rw [← Bool.not_eq_true, Bay.releaseCondition_iff]
    exact fun h => hm h.1
  have hj : (x.written p level c).joins = true :=
    (Bay.joins_iff _).mpr ⟨hm, hejector.trans he, hflt.trans hf⟩
  rw [Work.writeDemand_present p level c hp]
  unfold Work.demandWritten
  dsimp only
  rw [hstate, hs]
  dsimp only
  rw [if_neg (fun h => hm h.2), Work.idleTest, if_neg (by simp [hr]), if_pos hj]

/-- What a write of a column leaves of tries and retry pending (R32, R37, R45). -/
theorem Work.writeDemand_tries (p : Port) (level : Demand) {c : Ctx} {x : Bay} (hx : x.stateAllowed c.motion = true)
    (hp : x.present = true) :
    (Work.writeDemand p level c ⟨x, []⟩).bay.tries = x.tries ∧
      (Work.writeDemand p level c ⟨x, []⟩).bay.retry =
        if x.merged ≠ .stop ∧ (x.written p level c).merged = .stop ∧
            x.state ∈ [.idle, .queued, .spinningUp, .spinningDown] then false
        else x.retry := by
  have hz := x.sansDemands_written p level c
  obtain ⟨hstate, -⟩ := Bay.keeps_of_sansDemands hz
  have hretry := Work.demandWritten_retry (w := ⟨x.written p level c, writtenFacts p level⟩) hx hz
  rw [Work.writeDemand_present p level c hp]
  simp only [Bay.sansDemands, Bay.sansFlags, Bay.mk.injEq] at hz
  refine ⟨(Work.Goes.stay.demandWritten x.merged).tries.trans (by simp only [hz]), hretry.trans ?_⟩
  dsimp only
  rw [hstate]
  congr 1
  simp only [hz]

/-- A bay that took a way and stands where it stood entered no state. -/
theorem BayState.eq_nil_of_ways {st : BayState} : ∀ {l}, l ∈ st.ways → l.getLastD st = st → l = [] := by
  cases st <;> decide

/-- SET DEMAND as the event of its bays. -/
def State.demandEvent (s : State) (p : Port) (mask : Byte) (level : Demand) : Event :=
  s.event.onBays (maskBays mask) (Work.writeDemand p level)

theorem State.demandEvent_bay (s : State) (p : Port) (mask : Byte) (level : Demand) (b : BayNo) :
    (s.demandEvent p mask level).st.bay b =
      if b ∈ maskBays mask then (Work.writeDemand p level s.ctx ⟨s.bay b, []⟩).bay else s.bay b :=
  Event.onBays_bay _ _ s.event (maskBays_nodup mask) b

/-- SET DEMAND leaves the bays and the arbiter of its event, flags of ended requests apart. -/
theorem exec_setDemand_spec (s : State) (dt : Micros) (p : Port) (mask level : Byte) (hs : s.store.engine ≠ .startup) :
    ∃ t, exec (.setDemand dt p mask level) s = .next t ∧ t.now = s.now + dt ∧
      t.arbiter = ((s.advance dt).demandEvent p mask (levelOf level)).st.arbiter ∧
      (∀ b, (t.bay b).sansFlags = (((s.advance dt).demandEvent p mask (levelOf level)).st.bay b).sansFlags) ∧
      ∀ b, ¬(mask.getLsbD b.val = true ∧ (s.bay b).present = true) → t.bay b = s.bay b := by
  have hexec := exec_setDemand_started dt p hs mask level
  rw [show (s.advance dt).event.onBays (maskBays mask) (Work.writeDemand p (levelOf level)) =
    (s.advance dt).demandEvent p mask (levelOf level) from rfl] at hexec
  have hnofacts : ∀ b, ¬(mask.getLsbD b.val = true ∧ (s.bay b).present = true) →
      ∀ f, (b, f) ∉ ((s.advance dt).demandEvent p mask (levelOf level)).facts := fun b =>
    State.writeDemand_noFacts (s.advance dt) p mask (levelOf level)
  have hnow : ((s.advance dt).demandEvent p mask (levelOf level)).st.now = s.now + dt :=
    Event.onBays_now _ _ (s.advance dt).event
  have hbay := (s.advance dt).demandEvent_bay p mask (levelOf level)
  generalize (s.advance dt).demandEvent p mask (levelOf level) = e at *
  have hfinish := e.finish_frame
  simp only [Prod.mk.injEq] at hfinish
  obtain ⟨-, harb, -⟩ := hfinish
  refine ⟨_, hexec, by simp [hnow], (State.reply_spec p 2 .accepted e.finish).arbiter.trans harb, fun b => ?_, fun b hb => ?_⟩
  · rw [State.bay_reply, e.finish_sansFlags]
  · rw [State.bay_reply, e.finish_bay_of_no_facts (hnofacts b hb), hbay]
    split
    next hmem =>
      have habsent : (s.bay b).present = false := by simpa [(mem_maskBays mask b).mp hmem] using hb
      exact congrArg Work.bay (Work.writeDemand_absent p _ _ habsent)
    next => rfl

theorem State.demandEvent_queue (s : State) (p : Port) (mask : Byte) (level : Demand) (hq : s.queueMatches)
    (hstay : ∀ b ∈ maskBays mask, (Work.writeDemand p level s.ctx ⟨s.bay b, []⟩).bay.state = (s.bay b).state →
      entries (Work.writeDemand p level s.ctx ⟨s.bay b, []⟩).facts = []) :
    (s.demandEvent p mask level).st.arbiter.queue =
      s.arbiter.queue.filter (fun b => ((s.demandEvent p mask level).st.bay b).state = .queued) ++
        bayNos.filter fun b => (s.bay b).state ≠ .queued ∧ ((s.demandEvent p mask level).st.bay b).state = .queued :=
  Event.onBays_queue (.writeDemand p level) s mask hq hstay

theorem State.demandEvent_evalOwed (s : State) (p : Port) (mask : Byte) (level : Demand) :
    (s.demandEvent p mask level).st.arbiter.evalOwed =
      (s.arbiter.evalOwed || (maskBays mask).any fun b =>
        decide (entries (Work.writeDemand p level s.ctx ⟨s.bay b, []⟩).facts ≠ [])) := by
  unfold State.demandEvent
  rw [Event.onBays_arbiter _ _ _ (maskBays_nodup mask), Arbiter.onBayFacts_evalOwed]
  rfl

theorem Bay.history_of_sansFlags {x y : Bay} (h : x.sansFlags = y.sansFlags) :
    x.since = y.since ∧ x.tries = y.tries ∧ x.retry = y.retry := by
  simp only [Bay.sansFlags, Bay.mk.injEq] at h
  simp only [h, and_self]

/-- A write of a level, as the record it leaves says it (R6, R11). -/
theorem Bay.written_levelOf (p : Port) (level : Byte) (c : Ctx) (x : Bay) :
    x.written p (levelOf level) c =
      if level = 0 then x.setDemand p .stop
      else ((x.setDemand p (if level = 0 then .stop else if level = 1 then .spin else .load)).setFlag p false).relight c := by
  unfold Bay.written
  by_cases h : level = 0
  · rw [if_pos h, if_pos (by rw [levelOf_eq, if_pos h])]
  · rw [if_neg h, if_neg (levelOf_ne_stop h), levelOf_eq]

theorem exists_mem_maskBays {mask : Byte} (h : mask ≠ 0) : ∃ b, b ∈ maskBays mask := by
  by_contra hnone
  refine h (BitVec.eq_of_getLsbD_eq fun i hi => ?_)
  rw [Bool.eq_false_iff.mpr fun hb => hnone ⟨⟨i, hi⟩, (mem_maskBays mask ⟨i, hi⟩).mpr hb⟩]
  simp

end Sys2Proof.Machine

namespace Sys2Proof
open Machine

/-- Settles O27: each bay takes the way of its write, and the queue follows the states. -/
theorem setDemandQueuesIdleBaysInOrder : Obligations.SetDemandQueuesIdleBaysInOrder := by
  refine ⟨?_, ?_⟩
  · intro s dt p mask level hs hq hl hbays
    obtain ⟨t, hexec, hnow, harb, hbay, -⟩ := exec_setDemand_spec s dt p mask level hs
    have hrun : ∀ b ∈ maskBays mask, Work.writeDemand p (levelOf level) (s.advance dt).ctx ⟨s.bay b, []⟩ =
        Work.toQueued (s.advance dt).ctx
          ⟨(s.bay b).written p (levelOf level) (s.advance dt).ctx, writtenFacts p (levelOf level)⟩ := fun b hb => by
      obtain ⟨hst, hp, hejector, hf⟩ := hbays b ((mem_maskBays mask b).mp hb)
      exact Work.writeDemand_joins p _ hst hp hejector hf (levelOf_ne_stop hl)
    have hidle : ∀ b ∈ maskBays mask, (s.bay b).state = .idle := fun b hb => (hbays b ((mem_maskBays mask b).mp hb)).1
    have hstate : ∀ b, ((s.advance dt).demandEvent p mask (levelOf level)).st.bay b =
        if b ∈ maskBays mask then (Work.toQueued (s.advance dt).ctx
          ⟨(s.bay b).written p (levelOf level) (s.advance dt).ctx, writtenFacts p (levelOf level)⟩).bay
        else s.bay b := fun b => by
      rw [State.demandEvent_bay]
      split
      next hb => exact congrArg Work.bay (hrun b hb)
      next => rfl
    have hqueue := (s.advance dt).demandEvent_queue p mask (levelOf level) hq fun b hb hst => by
      rw [State.bay_advance, hrun b hb, Work.toQueued_state, hidle b hb] at hst
      cases hst
    refine ⟨t, hexec, ?_, fun b hb => ?_, fun hmask => ?_⟩
    · rw [harb]
      refine hqueue.trans (congrArg₂ (· ++ ·) (List.filter_eq_self.mpr fun b hb => ?_) (List.filter_congr fun b _ => ?_))
      · have hst := (hq.2 b).mp hb
        rw [hstate b]
        split
        · simp
        · simpa using hst
      · rw [hstate b]
        by_cases hb : b ∈ maskBays mask
        · rw [if_pos hb, State.bay_advance, hidle b hb, (mem_maskBays mask b).mp hb]
          simp
        · rw [if_neg hb, Bool.eq_false_iff.mpr fun h => hb ((mem_maskBays mask b).mpr h)]
          simp
    · have hb := (mem_maskBays mask b).mpr hb
      have hz := hbay b
      rw [hstate b, if_pos hb] at hz
      refine ⟨(Bay.state_of_sansFlags hz).trans (Work.toQueued_state _ _), ?_⟩
      rw [(Bay.history_of_sansFlags hz).1]
      simp [Work.toQueued, State.ctx]
    · obtain ⟨b, hb⟩ := exists_mem_maskBays hmask
      rw [harb, State.demandEvent_evalOwed, Bool.or_eq_true, List.any_eq_true]
      refine .inr ⟨b, hb, ?_⟩
      rw [State.bay_advance, hrun b hb]
      simp
  · intro s dt p mask level hs hsound demand
    obtain ⟨-, ⟨hq, hallowed⟩, -, ⟨-, hreleased, -, -⟩, -, hbays⟩ := hsound
    obtain ⟨t, hexec, hnow, harb, hbay, hrest⟩ := exec_setDemand_spec s dt p mask level hs
    set c := (s.advance dt).ctx with hc
    have htakes : ∀ b, (s.bay b).present = true →
        Work.Takes ⟨s.bay b, []⟩ (Work.writeDemand p (levelOf level) c ⟨s.bay b, []⟩)
          (((s.bay b).written p (levelOf level) c).demandExit c.motion c.now (s.bay b).merged) := fun b hp => by
      obtain ⟨-, hlines, -, hmonitor, -⟩ := hbays b
      exact Work.writeDemand_takes p _ ⟨hallowed b, hlines, hmonitor⟩ hp (hreleased b)
    have hstate : ∀ b, (Work.writeDemand p (levelOf level) c ⟨s.bay b, []⟩).bay.state =
        (entries (Work.writeDemand p (levelOf level) c ⟨s.bay b, []⟩).facts).getLastD (s.bay b).state := fun b =>
      (Act.run_state (.writeDemand p (levelOf level)) c (s.bay b)).trans (getLast_cons_eq_getLastD _ _)
    have hstay : ∀ b, (Work.writeDemand p (levelOf level) c ⟨s.bay b, []⟩).bay.state = (s.bay b).state →
        entries (Work.writeDemand p (levelOf level) c ⟨s.bay b, []⟩).facts = [] := fun b hst => by
      by_cases hp : (s.bay b).present = true
      · obtain ⟨l, hl, he, -⟩ := htakes b hp
        rw [hstate b, he] at hst
        exact he.trans (BayState.eq_nil_of_ways hl hst)
      · rw [Work.writeDemand_absent p _ c (by simpa using hp)]
        rfl
    have hentered : ∀ b, entries (Work.writeDemand p (levelOf level) c ⟨s.bay b, []⟩).facts = [] →
        (Work.writeDemand p (levelOf level) c ⟨s.bay b, []⟩).bay.state = (s.bay b).state := fun b hnone => by
      rw [hstate b, hnone]
      rfl
    have hout : ∀ b, (t.bay b).state = (((s.advance dt).demandEvent p mask (levelOf level)).st.bay b).state := fun b =>
      Bay.state_of_sansFlags (hbay b)
    refine ⟨t, hexec, hnow, fun b => ?_, ?_, ?_⟩
    · intro x y
      split
      next hb =>
        obtain ⟨hmask, hp⟩ := hb
        have hz := hbay b
        rw [State.demandEvent_bay, if_pos ((mem_maskBays mask b).mpr hmask), State.bay_advance] at hz
        obtain ⟨hsince, htries, hretry⟩ := Bay.history_of_sansFlags hz
        have hexit : (x.written p (levelOf level) c).demandExit c.motion c.now x.merged =
              y.demandExit s.motion.state t.now x.merged ∧ (x.written p (levelOf level) c).merged = y.merged := by
          rw [Bay.written_levelOf, hnow]
          by_cases hl : level = 0
          · rw [if_pos hl, show y = _ from if_pos hl]
            exact ⟨rfl, rfl⟩
          · rw [if_neg hl, show y = _ from if_neg hl, Bay.demandExit_relight, Bay.relight_merged]
            exact ⟨rfl, rfl⟩
        have hst : (t.bay b).state = (Work.writeDemand p (levelOf level) c ⟨x, []⟩).bay.state := Bay.state_of_sansFlags hz
        obtain ⟨htries', hretry'⟩ := Work.writeDemand_tries p (levelOf level) (c := c) (hallowed b) hp
        refine ⟨?_, ?_, htries.trans htries', ?_⟩
        · obtain ⟨l, hl, he, hlast, -⟩ := htakes b hp
          rw [hst, hstate b, he, ← hexit.1]
          exact hlast
        · refine (hsince.trans (Act.run_since (.writeDemand p (levelOf level)) c x)).trans ?_
          rw [hst, hnow]
          exact if_congr ⟨hentered b, hstay b⟩ rfl rfl
        · rw [hretry, hretry', hexit.2]
      next hb => exact hrest b hb
    · rw [harb, (s.advance dt).demandEvent_queue p mask (levelOf level) hq fun b _ => hstay b]
      exact congrArg₂ (· ++ ·) (List.filter_congr fun b _ => by rw [hout b])
        (List.filter_congr fun b _ => by rw [hout b]; rfl)
    · rintro ⟨b, hb⟩
      rw [hout b, State.demandEvent_bay] at hb
      split at hb
      next hmem =>
        rw [harb, State.demandEvent_evalOwed, Bool.or_eq_true, List.any_eq_true]
        exact .inr ⟨b, hmem, decide_eq_true fun hnone => hb (hentered b hnone)⟩
      next => exact absurd rfl hb

end Sys2Proof
end

section
/-!
How the way a bay takes ends the requests that stand for it (R163, R178 to R180).
-/

namespace Sys2Proof.Machine

/-! ### What a state entry ends -/

/-- An ending as its record shows it, `st` the state the bay comes to stand in (R178). -/
def Ending.shown (st : BayState) (e : Ending) : Termination × Reason × BayState :=
  (e.termination, e.reason, e.entered.getD st)

/-- How an entered state ends a WAIT BAY for a level (R179, R180). -/
def waitShown (level : Demand) (st : BayState) : Option (Termination × Reason × BayState) :=
  if st ∈ waitStates level then some (.complete, .none, st)
  else if level ≠ .stop && st = .faulted then some (.aborted, .fault, st)
  else if level ≠ .stop && st = .empty then some (.aborted, .removed, st)
  else none

/-- How an entered state ends a RELEASE BAY (R163). -/
def releaseShown (st : BayState) : Option (Termination × Reason × BayState) :=
  match st with
  | .released => some (.complete, .none, st)
  | .faulted => some (.aborted, .fault, st)
  | .empty => some (.aborted, .removed, st)
  | _ => none

theorem waitEnding_entered (level : Demand) (st st' : BayState) :
    (waitEnding level (.entered st)).map (Ending.shown st') = waitShown level st := by
  cases level <;> cases st <;> rfl

theorem releaseEnding_entered (p : Port) (st st' : BayState) :
    (releaseEnding p (.entered st)).map (Ending.shown st') = releaseShown st := by
  cases st <;> rfl

section
variable (raised : BayNo → Bool) (s t : State) {r : Request} {b : BayNo}

theorem Request.endedBy_wait {level : Demand} (hk : r.kind = .wait b level) :
    r.endedBy raised s t =
      if level ≠ .stop && !(s.bay b).ejectorOpen && (t.bay b).ejectorOpen then
        some (.aborted, .ejected, (t.bay b).state)
      else ((s.bay b).statesEntered (t.bay b)).findSome? (waitShown level) := by
  obtain ⟨tag, kind, accepted, due⟩ := r
  obtain rfl : kind = .wait b level := hk
  rfl

theorem Request.endedBy_release (hk : r.kind = .release b) :
    r.endedBy raised s t =
      if raised b then some (.aborted, .demandRaised, (t.bay b).state)
      else ((s.bay b).statesEntered (t.bay b)).findSome? releaseShown := by
  obtain ⟨tag, kind, accepted, due⟩ := r
  obtain rfl : kind = .release b := hk
  rfl

theorem Request.endedBy_store (hk : r.kind = .write ∨ r.kind = .reload) : r.endedBy raised s t = none := by
  obtain ⟨tag, kind, accepted, due⟩ := r
  obtain hk | hk := hk <;> obtain rfl := hk <;> rfl

end

/-! ### Ways and the states a record shows -/

/-- The states entered between two different states, as a record shows them. -/
def BayState.between (st st' : BayState) : List BayState :=
  match st' with
  | .queued => if st = .idle then [.queued] else [.idle, .queued]
  | .released => if st = .idle || st = .empty then [.released] else [.idle, .released]
  | .loading => if st = .spun then [.loading] else [.spun, .loading]
  | .retracting => if st = .spinningUp then [.spun, .retracting] else [.retracting]
  | st => [st]

theorem Bay.statesEntered_of_ne {x y : Bay} (h : y.state ≠ x.state) : x.statesEntered y = x.state.between y.state := by
  unfold Bay.statesEntered BayState.between
  refine (if_neg h).trans ?_
  cases y.state <;> rfl

/-- A bay went from one record to another by the states `l`: by one of its ways, or from SETTLE by way of SPUN into a
new load (R40, R80). -/
def Bay.Went (x y : Bay) (l : List BayState) : Prop :=
  (l ∈ x.state.ways ∧ y.state = l.getLastD x.state ∧
      (x.state = .loading → l = [] → x.phase = some .settle → y.phase ≠ some .seek)) ∨
    (x.state = .loading ∧ y.state = .loading ∧ x.phase = some .settle ∧ y.phase = some .seek ∧ l = [.spun, .loading])

theorem Bay.Went.statesEntered {x y : Bay} {l : List BayState} (h : x.Went y l)
    (hx : x.phase.isSome = true → x.state = .loading) :
    l = x.statesEntered y ∨ l ∈ x.state.ways ∧ l.getLastD x.state ≠ x.state ∧
      x.statesEntered y = x.state.between (l.getLastD x.state) := by
  obtain ⟨hl, hy, hphase⟩ | ⟨hs, hy, hsettle, hseek, rfl⟩ := h
  · by_cases hsame : y.state = x.state
    · have hnil : l = [] := BayState.eq_nil_of_ways hl (hy.symm.trans hsame)
      left
      rw [hnil, Bay.statesEntered, if_pos hsame, if_neg]
      intro hc
      simp only [Bool.and_eq_true, decide_eq_true_eq] at hc
      obtain ⟨hsettle, hseek⟩ := hc
      exact hphase (hx (by rw [hsettle]; rfl)) hnil hsettle hseek
    · exact .inr ⟨hl, hy ▸ hsame, hy ▸ Bay.statesEntered_of_ne hsame⟩
  · left
    simp [Bay.statesEntered, hs, hy, hsettle, hseek]

/-- The ways of a bay end a WAIT BAY that stood as the states its record shows do. -/
theorem findSome_waitShown_between : ∀ (level : Demand) (st : BayState), st ∉ waitStates level →
    (level = .stop ∨ st ∉ [.faulted, .empty]) → ∀ l ∈ st.ways, l.getLastD st ≠ st →
      l.findSome? (waitShown level) = (st.between (l.getLastD st)).findSome? (waitShown level) := by
  intro level st
  cases level <;> cases st <;> decide

theorem findSome_releaseShown_between : ∀ st : BayState, st ∉ [.empty, .faulted, .released] →
    ∀ l ∈ st.ways, l.getLastD st ≠ st → l.findSome? releaseShown = (st.between (l.getLastD st)).findSome? releaseShown := by
  intro st
  cases st <;> decide

/-! ### An event's facts -/

theorem findSome_facts {α : Type} (g : Fact → Option α) (fs : List Fact)
    (h : ∀ f ∈ fs, f.entered? = none → g f = none) :
    fs.findSome? g = (entries fs).findSome? fun st => g (.entered st) := by
  induction fs with
  | nil => rfl
  | cons f fs ih =>
    have hrest := ih fun f hf => h f (List.mem_cons_of_mem _ hf)
    cases f with
    | entered st => rw [entries_entered, List.findSome?_cons, List.findSome?_cons, hrest]
    | _ => rw [List.findSome?_cons, h _ (List.mem_cons_self ..) rfl, hrest]; rfl

theorem map_findSome {α β γ : Type} (g : α → Option β) (f : β → γ) (l : List α) :
    (l.findSome? g).map f = l.findSome? fun a => (g a).map f := by
  induction l with
  | nil => rfl
  | cons a l ih => rw [List.findSome?_cons, List.findSome?_cons]; cases g a <;> simp [ih]

/-- An event of one bay ends the requests for that bay alone. -/
theorem eventEnding_map (p : Port) (b : BayNo) (fs : List Fact) (r : Request) :
    eventEnding p (fs.map fun f => (b, f)) r = fs.findSome? fun f => factEnding p r (b, f) := by
  unfold eventEnding
  rw [List.findSome?_map]
  rfl

/-- What a bay hands on before its first entry that may end a request by itself: its ejector's change, or a demand
raised (R163, R180). -/
inductive Heads (raised : BayNo → Bool) (p : Port) (b : BayNo) (x y : Bay) : List Fact → Prop where
  | none : y.ejectorOpen = x.ejectorOpen → raised b = false → Heads raised p b x y []
  | ejector : raised b = false → Heads raised p b x y [.ejectorSet y.ejectorOpen]
  | demand (q : Port) : y.ejectorOpen = x.ejectorOpen → (raised b = true ↔ q = p) →
      Heads raised p b x y [.demandRaised q]

section
variable {raised : BayNo → Bool} {p : Port} {b : BayNo} {s t : State} {r : Request} {head rest : List Fact}

/-- An event ends a request that stood as `endedBy` says: by what its bay hands on first, or else by the first state it
enters that ends it (log 18). -/
theorem eventEnding_shown (hhead : Heads raised p b (s.bay b) (t.bay b) head)
    (hrest : ∀ f ∈ rest, f.entered? = none → f = .leftEmpty)
    (hwent : (s.bay b).Went (t.bay b) (entries rest)) (hphase : (s.bay b).phase.isSome = true → (s.bay b).state = .loading)
    (hb : r.kind.bay? = some b) (hr : s.requestStands p r = true) :
    (eventEnding p ((head ++ rest).map fun f => (b, f)) r).map (Ending.shown (t.bay b).state) = r.endedBy raised s t := by
  rw [eventEnding_map, List.findSome?_append]
  cases hk : r.kind with
  | wait c level =>
    rw [hk] at hb
    cases hb
    rw [State.requestStands, hk] at hr
    simp only [Bool.and_eq_true, decide_eq_true_eq, Bool.or_eq_true, Bool.not_eq_true'] at hr
    obtain ⟨hmet, habort⟩ := hr
    have hfact : ∀ f, factEnding p r (b, f) = waitEnding level f := fun f => by simp [factEnding, hk]
    have hentered : (rest.findSome? (waitEnding level)).map (Ending.shown (t.bay b).state) =
        ((s.bay b).statesEntered (t.bay b)).findSome? (waitShown level) := by
      rw [findSome_facts _ _ fun f hf hnone => by rw [hrest f hf hnone]; rfl, map_findSome]
      simp only [waitEnding_entered]
      obtain h | ⟨hl, hne, hst⟩ := hwent.statesEntered hphase
      · rw [← h]
      · rw [hst]
        exact findSome_waitShown_between level _ hmet (habort.imp_right fun h => h.1) _ hl hne
    have hpass : ∀ head : List Fact, head.findSome? (waitEnding level) = none →
        ((head.findSome? (waitEnding level)).or (rest.findSome? (waitEnding level))).map (Ending.shown (t.bay b).state) =
          ((s.bay b).statesEntered (t.bay b)).findSome? (waitShown level) :=
      fun head h => by rw [h, Option.none_or]; exact hentered
    rw [Request.endedBy_wait raised s t hk]
    simp only [hfact]
    cases hhead with
    | none hopen _ =>
      rw [if_neg (by rw [hopen]; simp)]
      exact hpass _ rfl
    | ejector _ =>
      cases hopen : (t.bay b).ejectorOpen with
      | true =>
        by_cases hlevel : level = .stop
        · rw [if_neg (by simp [hlevel])]
          exact hpass _ (by simp [waitEnding, hlevel])
        · have hclosed : (s.bay b).ejectorOpen = false := (habort.resolve_left hlevel).2
          rw [if_pos (by simp [hlevel, hclosed])]
          simp [waitEnding, hlevel, Ending.shown]
      | false =>
        rw [if_neg (by simp)]
        exact hpass _ rfl
    | demand q hopen _ =>
      rw [if_neg (by rw [hopen]; simp)]
      exact hpass _ rfl
  | release c =>
    rw [hk] at hb
    cases hb
    rw [State.requestStands, hk] at hr
    simp only [Bool.and_eq_true, decide_eq_true_eq] at hr
    obtain ⟨-, hstate⟩ := hr
    have hfact : ∀ f, factEnding p r (b, f) = releaseEnding p f := fun f => by simp [factEnding, hk]
    have hentered : (rest.findSome? (releaseEnding p)).map (Ending.shown (t.bay b).state) =
        ((s.bay b).statesEntered (t.bay b)).findSome? releaseShown := by
      rw [findSome_facts _ _ fun f hf hnone => by rw [hrest f hf hnone]; rfl, map_findSome]
      simp only [releaseEnding_entered]
      obtain h | ⟨hl, hne, hst⟩ := hwent.statesEntered hphase
      · rw [← h]
      · rw [hst]
        exact findSome_releaseShown_between _ hstate _ hl hne
    have hpass : ∀ head : List Fact, head.findSome? (releaseEnding p) = none →
        ((head.findSome? (releaseEnding p)).or (rest.findSome? (releaseEnding p))).map (Ending.shown (t.bay b).state) =
          ((s.bay b).statesEntered (t.bay b)).findSome? releaseShown :=
      fun head h => by rw [h, Option.none_or]; exact hentered
    rw [Request.endedBy_release raised s t hk]
    simp only [hfact]
    cases hhead with
    | none _ hraised =>
      rw [if_neg (by simp [hraised])]
      exact hpass _ rfl
    | ejector hraised =>
      rw [if_neg (by simp [hraised])]
      exact hpass _ rfl
    | demand q _ hraised =>
      by_cases hq : q = p
      · rw [if_pos (hraised.mpr hq)]
        simp [releaseEnding, hq, Ending.shown]
      · rw [if_neg (mt hraised.mp hq)]
        exact hpass _ (by simp [releaseEnding, hq])
  | write => rw [hk] at hb; cases hb
  | reload => rw [hk] at hb; cases hb

end

end Sys2Proof.Machine
end

section
/-!
The requests of a port after an event: those that ended, in order of acceptance, and those that stand (R178).
-/

namespace Sys2Proof.Machine

theorem Bay.Went.congr {x y z : Bay} {l : List BayState} (h : x.Went y l) (hs : z.state = y.state)
    (hp : z.phase = y.phase) : x.Went z l := by
  unfold Bay.Went
  rw [hs, hp]
  exact h

theorem Bay.loading_of_phase {x : Bay} (h : x.timersFollowState = true) (hp : x.phase.isSome = true) :
    x.state = .loading := by
  simp only [Bay.timersFollowState, Bool.and_eq_true] at h
  obtain ⟨⟨⟨-, h⟩, -⟩, -⟩ := h
  rw [hp] at h
  simpa using h

/-- A bay that did not move ends no request. -/
theorem Request.endedBy_of_same {raised : BayNo → Bool} {s t : State} {r : Request}
    (h : ∀ b, r.kind.bay? = some b → t.bay b = s.bay b ∧ raised b = false) : r.endedBy raised s t = none := by
  have hnone : ∀ x : Bay, x.statesEntered x = [] := fun x => by
    simp only [Bay.statesEntered, if_true]
    rw [if_neg]
    intro hc
    simp only [Bool.and_eq_true, decide_eq_true_eq] at hc
    rw [hc.1] at hc
    cases hc.2
  cases hk : r.kind with
  | wait b level =>
    obtain ⟨hb, -⟩ := h b (by rw [hk]; rfl)
    rw [Request.endedBy_wait raised s t hk, hb, hnone, if_neg (by simp)]
    rfl
  | release b =>
    obtain ⟨hb, hr⟩ := h b (by rw [hk]; rfl)
    rw [Request.endedBy_release raised s t hk, hb, hnone, if_neg (by simp [hr])]
    rfl
  | write => exact Request.endedBy_store raised s t (.inl hk)
  | reload => exact Request.endedBy_store raised s t (.inr hk)

/-- A request for no bay, or for a bay without facts, stands. -/
theorem eventEnding_eq_none {p : Port} {facts : List (BayNo × Fact)} {r : Request}
    (h : ∀ b, r.kind.bay? = some b → ∀ f, (b, f) ∉ facts) : eventEnding p facts r = none := by
  cases he : eventEnding p facts r with
  | none => rfl
  | some e =>
    obtain ⟨b, f, hf, hb, -⟩ := exists_fact_of_eventEnding he
    exact absurd hf (h b hb f)

theorem State.record_shown (s : State) {r : Request} {b : BayNo} (hb : r.kind.bay? = some b) (e : Ending) :
    s.record r e = r.recordAt s.now (e.shown (s.bay b).state) := by
  simp only [State.record, Request.recordAt, hb]
  rfl

theorem State.record_congr {s t : State} (hn : t.now = s.now) (hb : ∀ b, (t.bay b).state = (s.bay b).state) (r : Request)
    (e : Ending) : t.record r e = s.record r e := by
  simp only [State.record, hn, hb]

theorem State.endRequests_state (p : Port) (ends : Request → Option Ending) (s : State) (b : BayNo) :
    ((s.endRequests p ends).bay b).state = (s.bay b).state :=
  Bay.state_of_sansFlags (s.endRequests_sansFlags p ends b)

theorem State.endRequests_now (p : Port) (ends : Request → Option Ending) (s : State) :
    (s.endRequests p ends).now = s.now := by
  have h := s.endRequests_frame p ends
  simp only [Prod.mk.injEq] at h
  exact h.1

/-- Finishing an event ends in each port what the facts end, with the states that the event left (R27, R178). -/
theorem Event.finish_slots (e : Event) (p : Port) :
    (e.finish.port p).outstanding = (e.st.port p).outstanding.filter (fun r => (eventEnding p e.facts r).isNone) ∧
      (e.finish.port p).completions = (e.st.port p).completions ++
        (e.st.port p).outstanding.filterMap fun r => (eventEnding p e.facts r).map (e.st.record r) := by
  have ha := e.st.endRequests_port .a (eventEnding .a e.facts)
  have hpeer := e.st.endRequests_peer .a (eventEnding .a e.facts)
  have hb := (e.st.endRequests .a (eventEnding .a e.facts)).endRequests_port .b (eventEnding .b e.facts)
  have hpeer' := (e.st.endRequests .a (eventEnding .a e.facts)).endRequests_peer .b (eventEnding .b e.facts)
  cases p
  · rw [show e.finish.port .a = _ from hpeer'.trans ha]
    exact ⟨rfl, rfl⟩
  · rw [show (e.st.endRequests .a (eventEnding .a e.facts)).port .b = e.st.port .b from hpeer] at hb
    rw [show e.finish.port .b = _ from hb]
    refine ⟨rfl, congrArg (_ ++ ·) (List.filterMap_congr fun r _ => ?_)⟩
    refine congrArg (Option.map · _) (funext fun x => State.record_congr (State.endRequests_now _ _ _) ?_ r x)
    exact fun b => State.endRequests_state _ _ _ b

/-- How an event ends a request, told by what its record shows. -/
theorem Event.request_ended (e : Event) {p : Port} {r : Request} {ended : Option (Termination × Reason × BayState)}
    (h : eventEnding p e.facts r = none ∧ ended = none ∨
      ∃ b, r.kind.bay? = some b ∧ (eventEnding p e.facts r).map (Ending.shown (e.st.bay b).state) = ended) :
    (eventEnding p e.facts r).isNone = ended.isNone ∧
      (eventEnding p e.facts r).map (e.st.record r) = ended.map (r.recordAt e.st.now) := by
  obtain ⟨he, rfl⟩ | ⟨b, hb, rfl⟩ := h
  · rw [he]
    exact ⟨rfl, rfl⟩
  · refine ⟨by cases eventEnding p e.facts r <;> rfl, ?_⟩
    rw [Option.map_map]
    exact congrArg (Option.map · _) (funext fun x => e.st.record_shown hb x)

/-- An event ends the requests of a port as `ended` says where it does so request by request. -/
theorem Event.finish_requestsEnd (e : Event) (s : State) (p : Port)
    (ended : Request → Option (Termination × Reason × BayState))
    (hport : (e.st.port p).outstanding = (s.port p).outstanding ∧ (e.st.port p).completions = (s.port p).completions)
    (h : ∀ r ∈ (s.port p).outstanding, eventEnding p e.facts r = none ∧ ended r = none ∨
      ∃ b, r.kind.bay? = some b ∧ (eventEnding p e.facts r).map (Ending.shown (e.st.bay b).state) = ended r) :
    RequestsEnd p ended s e.finish [] [] := by
  obtain ⟨hout, hdone⟩ := e.finish_slots p
  rw [RequestsEnd, hout, hdone, hport.1, hport.2, List.append_nil, List.append_nil, Event.finish_now]
  exact ⟨List.filter_congr fun r hr => (e.request_ended (h r hr)).1,
    congrArg (_ ++ ·) (List.filterMap_congr fun r hr => (e.request_ended (h r hr)).2)⟩

end Sys2Proof.Machine
end

section
/-!
RELEASE BAY at its acceptance: where its bay goes (R7, R162).
-/

namespace Sys2Proof.Machine

/-- The bay as an accepted RELEASE BAY finds it, the old merged demand apart (R7). -/
def Bay.asked (p : Port) (c : Ctx) (x : Bay) : Bay := ((x.setDemand p .stop).setFlag p true).relight c

/-- Where an accepted RELEASE BAY leads its bay (R162). -/
def Bay.askExit (p : Port) (m : Motion) (now : Micros) (x : Bay) : BayState :=
  match x.state with
  | .empty => .empty
  | .faulted => .faulted
  | .released => .released
  | .idle => if x.demand p.peer = .stop then .released else .idle
  | _ => ((x.setDemand p .stop).setFlag p true).demandExit m now x.merged

section
variable (p : Port) {c : Ctx} {x : Bay}

theorem Bay.sansDemands_asked (c : Ctx) (x : Bay) : (x.asked p c).sansDemands = x.sansDemands := by
  unfold Bay.asked Bay.relight
  split <;> cases p <;> rfl

theorem Work.askRelease_eq (h : x.state ≠ .empty) :
    Work.askRelease p c ⟨x, []⟩ = Work.demandWritten c x.merged ⟨x.asked p c, []⟩ :=
  if_neg h

theorem Work.askRelease_empty (h : x.state = .empty) : Work.askRelease p c ⟨x, []⟩ = ⟨x, []⟩ :=
  if_pos h

theorem Bay.merged_eq_stop_iff_peer (x : Bay) : x.merged = .stop ↔ x.demand p = .stop ∧ x.demand p.peer = .stop := by
  rw [Bay.merged_eq_stop_iff]
  cases p
  exacts [Iff.rfl, and_comm]

theorem Bay.asked_merged_eq_stop_iff : (x.asked p c).merged = .stop ↔ x.demand p.peer = .stop := by
  rw [Bay.merged_eq_stop_iff_peer p]
  simp [Bay.asked]

theorem Bay.asked_releaseCondition_iff : (x.asked p c).releaseCondition = true ↔ x.demand p.peer = .stop := by
  rw [Bay.releaseCondition_iff, Bay.asked_merged_eq_stop_iff, and_iff_left]
  have hf : (x.asked p c).flag p = true := by simp [Bay.asked]
  cases p
  exacts [.inl hf, .inr (.inl hf)]

theorem Bay.demandExit_asked (m : Motion) (now : Micros) (old : Demand) :
    (x.asked p c).demandExit m now old = ((x.setDemand p .stop).setFlag p true).demandExit m now old :=
  Bay.demandExit_relight c m now old _

/-- What `askExit` spells out by state is where the write of the column leads (R162). -/
theorem Bay.askExit_eq (hx : x.stateAllowed c.motion = true) (hs : x.state ≠ .empty) :
    (x.asked p c).demandExit c.motion c.now x.merged = x.askExit p c.motion c.now := by
  obtain ⟨hstate, hflt, hejector, -⟩ := Bay.keeps_of_sansDemands (x.sansDemands_asked p c)
  unfold Bay.askExit
  cases hst : x.state with
  | empty => exact absurd hst hs
  | faulted => simp only [Bay.demandExit, hstate, hst]
  | released =>
    have hm := ((Bay.merged_eq_stop_iff_peer p x).mp (Bay.merged_stop_of_allowed hx (.inr hst))).2
    simp only [Bay.demandExit, hstate, hst]
    rw [if_pos (Bay.asked_merged_eq_stop_iff p |>.mpr hm)]
  | idle =>
    simp only [Bay.demandExit, hstate, hst]
    rw [Bay.restExit_eq]
    split
    next hr => rw [if_pos ((Bay.asked_releaseCondition_iff p).mp hr)]
    next hr =>
      have hm := mt (Bay.asked_releaseCondition_iff p (c := c)).mpr hr
      have hheld : x.ejectorOpen = true ∨ x.fltOn = true := by
        have hne : x.merged ≠ .stop := fun h => hm ((Bay.merged_eq_stop_iff_peer p x).mp h).2
        have h : x.present = true ∧ (x.ejectorOpen = true ∨ x.fltOn = true) := by
          simpa [Bay.stateAllowed, hst, hne] using hx
        exact h.2
      have hj : (x.asked p c).joins = false := by
        rw [← Bool.not_eq_true, Bay.joins_iff, hejector, hflt]
        rintro ⟨-, he, hf⟩
        simp [he, hf] at hheld
      rw [hj, if_neg hm]
      rfl
  | _ => exact Bay.demandExit_asked p c.motion c.now x.merged

/-- Where RELEASE BAY leads a sound bay. -/
theorem Work.askRelease_takes (hx : x.Stands c.motion) :
    Work.Takes ⟨x, []⟩ (Work.askRelease p c ⟨x, []⟩) (x.askExit p c.motion c.now) := by
  by_cases hs : x.state = .empty
  · rw [Work.askRelease_empty p hs]
    exact .stay (by simp only [Bay.askExit, hs]) rfl
  · have hz := x.sansDemands_asked p c
    obtain ⟨hstate, -⟩ := Bay.keeps_of_sansDemands hz
    have hphase : (x.asked p c).phase = x.phase := by
      simp only [Bay.sansDemands, Bay.sansFlags, Bay.mk.injEq] at hz
      simp only [hz]
    obtain ⟨l, hl, he, hlast, hloads⟩ := Work.demandWritten_takes (w := ⟨x.asked p c, []⟩) hx hz fun hrel hm =>
      (Bay.asked_releaseCondition_iff p).mpr ((Bay.asked_merged_eq_stop_iff p).mp hm)
    dsimp only at hl hlast hloads
    rw [hstate] at hl hlast hloads
    rw [Work.askRelease_eq p hs, ← Bay.askExit_eq p hx.allowed hs]
    exact ⟨l, hl, he, hlast, fun hs hnil => (hloads hs hnil).trans hphase⟩

/-- No write of a column faults or empties a bay. -/
theorem Bay.demandExit_ne_faulted {y : Bay} (m : Motion) (now : Micros) (old : Demand)
    (hs : y.state ≠ .faulted ∧ y.state ≠ .empty) (hf : y.state = .loading ∨ y.state = .ready → y.fltOn = false) :
    y.demandExit m now old ≠ .faulted ∧ y.demandExit m now old ≠ .empty := by
  have hrest : y.restExit ≠ .faulted ∧ y.restExit ≠ .empty := by
    have h := y.restExit_mem
    generalize y.restExit = st at h
    revert st
    decide
  have hunload : y.state = .loading ∨ y.state = .ready →
      (if y.prkOn then y.spunExit m else .unloading) ≠ .faulted ∧ (if y.prkOn then y.spunExit m else .unloading) ≠ .empty := by
    intro h
    have hf := hf h
    unfold Bay.spunExit
    rw [hf]
    split
    · simp only [Bool.false_eq_true, if_false]
      split
      · decide
      · split <;> decide
    · decide
  unfold Bay.demandExit
  cases hst : y.state <;> dsimp only
  case idle => exact hrest
  case released | queued => split <;> first | exact hrest | decide
  case spinningUp => split <;> decide
  case spun =>
    split
    · decide
    · split <;> decide
  case loading =>
    split
    · decide
    · split
      · decide
      · exact hunload (.inl hst)
  case ready =>
    split
    · decide
    · exact hunload (.inr hst)
  case faulted => exact absurd hst hs.1
  case empty => exact absurd hst hs.2
  all_goals decide

/-- A way that neither faults nor empties its bay ends its RELEASE BAYs where it ends in RELEASED (R163). -/
theorem findSome_releaseEnding_of_ways (p : Port) (st : BayState) :
    ∀ l ∈ st.ways, l = [] ∨ l.getLastD st ≠ .faulted ∧ l.getLastD st ≠ .empty →
      l.findSome? (fun st => releaseEnding p (.entered st)) =
        if l ≠ [] ∧ l.getLastD st = .released then some ⟨.complete, .none, some .released⟩ else none := by
  cases p <;> cases st <;> decide

end

end Sys2Proof.Machine
end

section
/-!
RELEASE BAY at its acceptance: how it and the port's other requests end (R162, R163, R178).
-/

namespace Sys2Proof.Machine

/-! ### The hold reason looks at no LED and at no port (R20 to R24) -/

/-- A bay without its LED. -/
def Bay.sansLed (x : Bay) : Bay := { x with led := false, ledPattern := .off, ledTimer := none }

/-- What a function that does not look at the LED makes of bays that differ in it alone. -/
theorem Bay.eq_of_sansLed {α : Type} (f : Bay → α) {x y : Bay} (h : y.sansLed = x.sansLed)
    (hf : ∀ z : Bay, f z.sansLed = f z := by intro; rfl) : f y = f x := by
  rw [← hf y, h, hf x]

theorem State.draw_congr {s t : State} (hb : ∀ c, (t.bay c).sansLed = (s.bay c).sansLed) : t.draw = s.draw := by
  have h : ∀ c, (t.bays.get c).contribution = (s.bays.get c).contribution := fun c => Bay.eq_of_sansLed Bay.contribution (hb c)
  have hmap : t.bays.toList.map Bay.contribution = s.bays.toList.map Bay.contribution := by
    simp only [Eight.toList, List.map_cons, List.map_nil]
    exact congr (congrArg _ (h 0)) <| congr (congrArg _ (h 1)) <| congr (congrArg _ (h 2)) <| congr (congrArg _ (h 3)) <|
      congr (congrArg _ (h 4)) <| congr (congrArg _ (h 5)) <| congr (congrArg _ (h 6)) <| congr (congrArg _ (h 7)) rfl
  exact congrArg List.sum hmap

/-- The hold reason is read from the clock, the motion state, the arbiter, the store and the bays without their LEDs. -/
theorem State.holdReason_congr {s t : State} (b : BayNo) (hnow : t.now = s.now) (hm : t.motion = s.motion)
    (ha : t.arbiter = s.arbiter) (hst : t.store = s.store) (hb : ∀ c, (t.bay c).sansLed = (s.bay c).sansLed) :
    t.holdReason b = s.holdReason b := by
  have hbudget : t.budgetHolds b = s.budgetHolds b := by
    have hstate : (t.bay b).state = (s.bay b).state := Bay.eq_of_sansLed Bay.state (hb b)
    have halone : t.fitsAlone = s.fitsAlone := by
      funext c
      simp only [State.fitsAlone, ha, hst]
    have hfits : t.fitsBudget = s.fitsBudget := by
      funext c
      simp only [State.fitsBudget, State.draw_congr hb, ha, hst]
    unfold State.budgetHolds State.headCandidate
    rw [hstate, halone, hfits, ha]
  have hgap : t.inGap = s.inGap := by simp only [State.inGap, ha, hnow, hst]
  have hctx : t.ctx = s.ctx := by simp only [State.ctx, hnow, hm]
  have h1 : (t.bay b).present = (s.bay b).present := Bay.eq_of_sansLed Bay.present (hb b)
  have h2 : (t.bay b).state = (s.bay b).state := Bay.eq_of_sansLed Bay.state (hb b)
  have h3 : (t.bay b).fltOn = (s.bay b).fltOn := Bay.eq_of_sansLed Bay.fltOn (hb b)
  have h4 : (t.bay b).ejectorOpen = (s.bay b).ejectorOpen := Bay.eq_of_sansLed Bay.ejectorOpen (hb b)
  have h5 : (t.bay b).merged = (s.bay b).merged := Bay.eq_of_sansLed Bay.merged (hb b)
  have h6 : (t.bay b).peerHold = (s.bay b).peerHold := Bay.eq_of_sansLed Bay.peerHold (hb b)
  have h7 : (t.bay b).motionHolds s.motion.state = (s.bay b).motionHolds s.motion.state :=
    Bay.eq_of_sansLed (Bay.motionHolds s.motion.state) (hb b)
  have h8 : (t.bay b).dwellHolds s.ctx = (s.bay b).dwellHolds s.ctx := Bay.eq_of_sansLed (Bay.dwellHolds s.ctx) (hb b)
  unfold State.holdReason
  dsimp only
  rw [hbudget, hgap, hctx, hm, h1, h2, h3, h4, h5, h6, h7, h8]

/-! ### Flags after the end of requests (R11) -/

section
variable (p : Port) (ends : Request → Option Ending) (s : State) (b : BayNo)

open Classical in
theorem State.endRequests_flag :
    ((s.endRequests p ends).bay b).flag p =
      if (∃ r ∈ (s.port p).outstanding, endsUnreleased ends b r) ∧
          ∀ q ∈ (s.port p).outstanding, ends q = none → q.kind ≠ .release b then false
      else (s.bay b).flag p := by
  rw [State.endRequests_bay]
  split <;> simp

theorem State.endRequests_flag_peer : ((s.endRequests p ends).bay b).flag p.peer = (s.bay b).flag p.peer := by
  classical
  rw [State.endRequests_bay]
  split <;> simp

open Classical in
/-- Finishing an event clears a port's flag where it ends the last of the port's RELEASE BAYs for the bay, one at least
but for COMPLETE. -/
theorem Event.finish_flag (e : Event) :
    (e.finish.bay b).flag p =
      if (∃ r ∈ (e.st.port p).outstanding, endsUnreleased (eventEnding p e.facts) b r) ∧
          ∀ q ∈ (e.st.port p).outstanding, eventEnding p e.facts q = none → q.kind ≠ .release b then false
      else (e.st.bay b).flag p := by
  cases p
  · refine ((e.st.endRequests .a (eventEnding .a e.facts)).endRequests_flag_peer .b (eventEnding .b e.facts) b).trans ?_
    exact State.endRequests_flag .a _ e.st b
  · have hport := e.st.endRequests_peer .a (eventEnding .a e.facts)
    have hflag := e.st.endRequests_flag_peer .a (eventEnding .a e.facts) b
    refine (State.endRequests_flag .b _ _ b).trans ?_
    rw [show (e.st.endRequests .a (eventEnding .a e.facts)).port .b = e.st.port .b from hport,
      show ((e.st.endRequests .a (eventEnding .a e.facts)).bay b).flag .b = (e.st.bay b).flag .b from hflag]

end

/-! ### The last request accepted ends -/

/-- The end of the request accepted last leaves the others and appends its record (R162, R178). -/
theorem State.endTagged_last {v : State} {p : Port} {os : List Request} {new : Request} (e : Ending)
    (hout : (v.port p).outstanding = os ++ [new]) (htags : ∀ r ∈ os, r.tag ≠ new.tag) :
    (v.endTagged p new.tag e).port p =
      { v.port p with outstanding := os, completions := (v.port p).completions ++ [v.record new e] } := by
  have hfilter : os.filter (fun r => (if r.tag = new.tag then some e else none).isNone) = os :=
    List.filter_eq_self.mpr fun r hr => by simp [htags r hr]
  have hmap : os.filterMap (fun r => (if r.tag = new.tag then some e else none).map (v.record r)) = [] :=
    List.filterMap_eq_nil_iff.mpr fun r hr => by simp [htags r hr]
  rw [State.endTagged, State.endRequests_port, hout, List.filter_append, List.filterMap_append, hfilter, hmap]
  simp

/-- It clears its flag where it ends but for COMPLETE and no other RELEASE BAY of the port for the bay stands (R11). -/
theorem State.endTagged_last_bay {v : State} {p : Port} {b : BayNo} {os : List Request} {new : Request} (e : Ending)
    (hout : (v.port p).outstanding = os ++ [new]) (htags : ∀ r ∈ os, r.tag ≠ new.tag) (hk : new.kind = .release b) :
    (v.endTagged p new.tag e).bay b =
      if e.termination ≠ .complete ∧ os.any (fun r => r.kind = .release b) = false then (v.bay b).unflagged p v.ctx
      else v.bay b := by
  classical
  rw [State.endTagged, State.endRequests_bay, hout]
  refine if_congr (and_congr ⟨?_, fun he => ⟨new, by simp, hk, e, by simp, he⟩⟩ ?_) rfl rfl
  · rintro ⟨r, -, -, e', he', ht⟩
    dsimp only at he'
    split at he'
    · exact Option.some.inj he' ▸ ht
    · cases he'
  · rw [List.any_eq_false]
    refine ⟨fun h r hr => by simpa using h r (by simp [hr]) (if_neg (htags r hr)), fun h r hr hnone => ?_⟩
    obtain hr | hr := List.mem_append.mp hr
    · simpa using h r hr
    · rw [List.mem_singleton.mp hr, if_pos rfl] at hnone
      cases hnone

end Sys2Proof.Machine
end

section
/-!
The acceptance of a RELEASE BAY as an event of its bay (R162, R163).
-/

namespace Sys2Proof.Machine

/-! ### What the bay hands on -/

section
variable (p : Port) (c : Ctx) (x : Bay)

theorem Work.askRelease_facts : ∀ f ∈ (Work.askRelease p c ⟨x, []⟩).facts, f.entered? = none → f = .leftEmpty := by
  by_cases hs : x.state = .empty
  · rw [Work.askRelease_empty p hs]
    simp
  · rw [Work.askRelease_eq p hs]
    obtain ⟨fs, hfs, hall⟩ := (Work.Goes.stay (c := c) (w := ⟨x.asked p c, []⟩)).demandWritten x.merged |>.facts
    rw [hfs, List.nil_append]
    intro f hf hnone
    obtain h | ⟨st, -, rfl⟩ := hall f hf
    · exact h
    · cases hnone

theorem Work.askRelease_demand_peer : (Work.askRelease p c ⟨x, []⟩).bay.demand p.peer = x.demand p.peer := by
  by_cases hs : x.state = .empty
  · rw [Work.askRelease_empty p hs]
  · rw [Work.askRelease_eq p hs, (Work.Goes.stay (c := c) (w := ⟨x.asked p c, []⟩)).demandWritten x.merged |>.inputs.demand]
    simp [Bay.asked]

theorem Work.askRelease_ejectorOpen : (Work.askRelease p c ⟨x, []⟩).bay.ejectorOpen = x.ejectorOpen := by
  by_cases hs : x.state = .empty
  · rw [Work.askRelease_empty p hs]
  · obtain ⟨-, -, hejector, -⟩ := Bay.keeps_of_sansDemands (x.sansDemands_asked p c)
    rw [Work.askRelease_eq p hs]
    exact ((Work.Goes.stay (c := c) (w := ⟨x.asked p c, []⟩)).demandWritten x.merged).inputs.ejectorOpen.trans hejector

variable {c x}

/-- The entries of an accepted RELEASE BAY: a way of its bay, ending where R162 says, and never in FAULTED or EMPTY. -/
theorem Work.askRelease_went (hx : x.Stands c.motion) :
    let w := Work.askRelease p c ⟨x, []⟩
    x.Went w.bay (entries w.facts) ∧ entries w.facts ∈ x.state.ways ∧
      (entries w.facts).getLastD x.state = x.askExit p c.motion c.now ∧ w.bay.state = x.askExit p c.motion c.now ∧
      (entries w.facts = [] ∨ (entries w.facts).getLastD x.state ≠ .faulted ∧
        (entries w.facts).getLastD x.state ≠ .empty) := by
  intro w
  obtain ⟨l, hl, he, hlast, hphase⟩ := Work.askRelease_takes p hx
  have he : entries w.facts = l := he
  have hstate : w.bay.state = l.getLastD x.state :=
    (((Act.askRelease p).run_state c x).trans (getLast_cons_eq_getLastD _ _)).trans (congrArg (·.getLastD x.state) he)
  rw [he]
  refine ⟨.inl ⟨hl, hstate, fun hs hnil hsettle hseek => ?_⟩, hl, hlast, hstate.trans hlast, ?_⟩
  · have hsame : w.bay.phase = x.phase := hphase hs hnil
    rw [hsame, hsettle] at hseek
    cases hseek
  rw [show l.getLastD x.state = _ from hlast]
  by_cases hs : x.state = .faulted ∨ x.state = .empty
  · left
    refine BayState.eq_nil_of_ways hl (hlast.trans ?_)
    obtain hs | hs := hs <;> simp only [Bay.askExit, hs]
  · right
    rw [not_or] at hs
    obtain ⟨hstate, hflt, -⟩ := Bay.keeps_of_sansDemands (x.sansDemands_asked p c)
    rw [← Bay.askExit_eq p hx.allowed hs.2]
    refine Bay.demandExit_ne_faulted _ _ _ (by rwa [hstate]) fun h => ?_
    rw [hstate] at h
    rw [hflt]
    exact Bay.fltOn_of_allowed hx.allowed (by obtain h | h := h <;> simp [h])

/-- A way passes through RELEASED only from RELEASED itself (R11, R161). -/
theorem BayState.not_mem_dropLast_of_ways : ∀ st : BayState, ∀ l ∈ st.ways, (st = .released → l = []) →
    .released ∉ (st :: l).dropLast := by
  intro st
  cases st <;> decide

/-- The flag stands where the bay is there to be released (R7). -/
theorem Work.askRelease_flag (hx : x.Stands c.motion) (hf : x.state = .empty → x.flag p = false) :
    (Work.askRelease p c ⟨x, []⟩).bay.flag p = decide (x.state ≠ .empty) := by
  by_cases hs : x.state = .empty
  · rw [Work.askRelease_empty p hs]
    simp [hf hs, hs]
  · obtain ⟨-, hl, hlast, -⟩ := Work.askRelease_went p hx
    rw [Work.askRelease_eq p hs] at hl hlast ⊢
    have ht := (Work.Goes.stay (c := c) (w := ⟨x.asked p c, []⟩)).demandWritten x.merged |>.tracks (.start c _ [] rfl)
    obtain ⟨hstate, -⟩ := Bay.keeps_of_sansDemands (x.sansDemands_asked p c)
    rw [ht.flag, hstate]
    have hout := BayState.not_mem_dropLast_of_ways _ _ hl fun hrel => BayState.eq_nil_of_ways hl <| by
      rw [hlast]
      simp only [Bay.askExit, hrel]
    rw [show (x.asked p c).flag p = true by simp [Bay.asked]]
    simp [hout, hs]

end

/-! ### How requests end -/

theorem eventEnding_release_of_way {p : Port} {b : BayNo} {fs : List Fact} {st : BayState} {r : Request}
    (hrest : ∀ f ∈ fs, f.entered? = none → f = .leftEmpty) (hl : entries fs ∈ st.ways)
    (hn : entries fs = [] ∨ (entries fs).getLastD st ≠ .faulted ∧ (entries fs).getLastD st ≠ .empty)
    (hk : r.kind = .release b) :
    eventEnding p (fs.map fun f => (b, f)) r =
      if entries fs ≠ [] ∧ (entries fs).getLastD st = .released then some ⟨.complete, .none, some .released⟩ else none := by
  have hfact : ∀ f, factEnding p r (b, f) = releaseEnding p f := fun f => by simp [factEnding, hk]
  rw [eventEnding_map]
  simp only [hfact]
  rw [findSome_facts _ _ fun f hf hnone => by rw [hrest f hf hnone]; rfl]
  exact findSome_releaseEnding_of_ways p st _ hl hn

/-- How an accepted RELEASE BAY that its bay's event left outstanding ends (R162). -/
def askEnding (goes : BayState) (timeout : Half) (reason : Reason) : Option (Termination × Reason) :=
  match goes with
  | .released => some (.complete, .none)
  | .faulted => some (.aborted, .fault)
  | .empty => some (.aborted, .removed)
  | _ => if timeout = 0 then some (.expired, reason) else none

theorem State.orExpireAtOnce_release (v : State) (b : BayNo) (timeout : Half) :
    v.orExpireAtOnce b timeout (v.releaseAtAcceptance b) =
      (askEnding (v.bay b).state timeout (v.holdReason b)).map fun e => ⟨e.1, e.2, none⟩ := by
  unfold State.releaseAtAcceptance askEnding State.orExpireAtOnce
  cases (v.bay b).state <;> dsimp only <;> first | rfl | (split <;> rfl)

theorem askEnding_ne_complete {goes : BayState} {timeout : Half} {reason : Reason} {e : Termination × Reason}
    (h : askEnding goes timeout reason = some e) : e.1 = .complete ↔ e = (.complete, .none) := by
  unfold askEnding at h
  split at h
  · cases h; simp
  · cases h; simp
  · cases h; simp
  · split at h
    · cases h; simp
    · cases h

/-- What the acceptance of a RELEASE BAY still ends after its bay's event: the request itself, where it is outstanding,
as what its bay came to calls for (R162). -/
theorem State.endAccepted_release {v : State} {p : Port} {b : BayNo} {os : List Request} {new : Request} (timeout : Half)
    (hk : new.kind = .release b) (htags : ∀ r ∈ os, r.tag ≠ new.tag)
    (hslots : (v.port p).outstanding = os ++ [new] ∨ (v.port p).outstanding = os ∧ (v.bay b).state = .released) :
    let ending := askEnding (v.bay b).state timeout (v.holdReason b)
    let z := v.endAccepted p new.tag (v.orExpireAtOnce b timeout (v.releaseAtAcceptance b))
    z.now = v.now ∧ BayFrame b v z ∧ z.arbiter = v.arbiter ∧ (z.port p).frame = (v.port p).frame ∧
      (z.port p).outstanding = os ++ (if ending = none then [new] else []) ∧
      (z.port p).completions = (v.port p).completions ++
        (if (v.port p).outstanding = os then []
          else ending.toList.map fun e => v.record new ⟨e.1, e.2, none⟩) ∧
      z.bay b =
        if (ending ≠ none ∧ ending ≠ some (.complete, .none)) ∧ os.any (fun r => r.kind = .release b) = false then
          (v.bay b).unflagged p v.ctx
        else v.bay b := by
  intro ending z
  have hne : os ++ [new] ≠ os := by simp
  have hdef : ending = askEnding (v.bay b).state timeout (v.holdReason b) := rfl
  have hz : z = v.endAccepted p new.tag (ending.map fun e => ⟨e.1, e.2, none⟩) := by
    rw [← v.orExpireAtOnce_release b timeout]
  cases hE : ending with
  | none =>
    rw [hE] at hz
    have hz : z = v := hz
    have hout : (v.port p).outstanding = os ++ [new] := hslots.resolve_right fun h => by
      rw [hdef, h.2] at hE
      cases hE
    rw [hz, hout]
    exact ⟨rfl, .refl b v, rfl, rfl, rfl, by simp, by simp⟩
  | some e =>
    rw [hE] at hz
    have hz : z = v.endTagged p new.tag ⟨e.1, e.2, none⟩ := hz
    have hcomplete : e.1 ≠ .complete ↔ some e ≠ some (.complete, .none) := by
      rw [ne_eq, askEnding_ne_complete hE]
      simp
    obtain hout | ⟨hout, hst⟩ := hslots
    · have hport := State.endTagged_last ⟨e.1, e.2, none⟩ hout htags
      have hbay := State.endTagged_last_bay (b := b) ⟨e.1, e.2, none⟩ hout htags hk
      have hframe : BayFrame b v (v.endTagged p new.tag ⟨e.1, e.2, none⟩) := by
        refine State.endRequests_bayFrame b p _ v fun r hr e' he' d hd => ?_
        split at he'
        next htag =>
          rw [hout] at hr
          obtain hr | hr := List.mem_append.mp hr
          · exact absurd htag (htags r hr)
          · rw [List.mem_singleton.mp hr, hk] at hd
            exact (RequestKind.release.inj hd).symm
        next => cases he'
      have hrest := v.endRequests_rest p fun r => if r.tag = new.tag then some ⟨e.1, e.2, none⟩ else none
      simp only [Prod.mk.injEq] at hrest
      obtain ⟨harb, -⟩ := hrest
      rw [hz, hport, hbay, if_neg (by simp), hout, if_neg hne]
      refine ⟨State.endTagged_now .., hframe, harb, rfl, by simp, rfl, ?_⟩
      exact if_congr (and_congr_left fun _ => by rw [hcomplete]; simp) rfl rfl
    · have hnone : v.endTagged p new.tag ⟨e.1, e.2, none⟩ = v :=
        State.endRequests_none p _ v fun r hr => if_neg (htags r (hout ▸ hr))
      rw [hdef, hst] at hE
      obtain rfl := Option.some.inj hE
      rw [hz, hnone, hout]
      exact ⟨rfl, .refl b v, rfl, rfl, by simp, by simp, by simp⟩

/-- What a flag set and cleared again leaves but the LED. -/
theorem Bay.sansLed_setFlag_unflagged (p : Port) (c : Ctx) {x : Bay} (h : x.flag p = true) :
    ((x.unflagged p c).setFlag p true).sansLed = x.sansLed := by
  have hx : x = x.setFlag p true := (Bay.setFlag_self h).symm
  rw [hx]
  unfold Bay.unflagged Bay.relight
  split <;> cases p <;> rfl

end Sys2Proof.Machine

namespace Sys2Proof
open Machine

/-- Settles O34: the bay takes the way of its write, which ends the requests, and the new request ends by it or by what
it finds right after. -/
theorem releaseBayActsAtAcceptance : Obligations.ReleaseBayActsAtAcceptance := by
  intro s dt p tag b timeout hs hsound hslots htags x now goes
  obtain ⟨-, ⟨-, hallowed⟩, -, hreleases, -, hbays⟩ := hsound
  obtain ⟨-, hlines, htimers, hmonitor, -⟩ := hbays b
  have hstands : ∀ r ∈ (s.port p).outstanding, s.requestStands p r = true := hreleases.1 p (by cases p <;> simp)
  set c := (s.advance dt).ctx with hc
  have hx : x.Stands c.motion := ⟨hallowed b, hlines, hmonitor⟩
  set w := Work.askRelease p c ⟨x, []⟩ with hw
  have hfacts := Work.askRelease_facts p c x
  obtain ⟨hwent, hway, hlast, hstate, hnever⟩ := Work.askRelease_went p hx
  have hflag := Work.askRelease_flag p hx fun h => State.flag_of_empty hreleases h p
  rw [← hw] at hfacts hwent hway hlast hstate hnever hflag
  have hgoes : goes = x.askExit p c.motion c.now := rfl
  rw [← hgoes] at hstate hlast
  let new : Request := { tag := tag, kind := .release b, accepted := now / 1000, due := some (now + 1000 * timeout.toNat) }
  set u := (s.advance dt).accept p tag (.release b) (timeoutDue (s.now + dt) timeout) with hu
  have huport : u.port p = { s.port p with outstanding := (s.port p).outstanding ++ [new] } := by
    rw [hu, State.accept, State.port_setPort, State.port_advance]
    rfl
  have hubay : ∀ d, u.bay d = s.bay d := fun d => by simp [hu, State.accept]
  have huctx : u.ctx = c := by simp [hu, State.accept, State.ctx, hc]
  set e := u.event.onBay b (Work.askRelease p) with he
  set v := u.bayEvent b (Work.askRelease p) with hv
  have hvfinish : v = e.finish := rfl
  have hrun : Work.askRelease p u.event.st.ctx ⟨u.event.st.bay b, []⟩ = w := by
    rw [State.event_st, huctx, hubay]
  have hefacts : e.facts = w.facts.map fun f => (b, f) := by
    rw [he, (Event.onBay_spec b _ _).1, hrun]
    rfl
  have hebay : ∀ d, e.st.bay d = if d = b then w.bay else s.bay d := fun d => by
    rw [he, Event.onBay_bay, hrun, State.event_st, hubay]
  have heport : e.st.port p = w.facts.foldl (fun u f => u.onFact b f) (u.port p) := by
    rw [he, Event.onBay_port, hrun]
    rfl
  have heslots : (e.st.port p).outstanding = (s.port p).outstanding ++ [new] ∧
      (e.st.port p).completions = (s.port p).completions := by
    have h := PortUnit.onFacts_slots b w.facts (u.port p)
    rw [heport]
    simp only [Prod.mk.injEq] at h
    rw [h.1, h.2, huport]
    exact ⟨rfl, rfl⟩
  have hrelease : ∀ r : Request, r.kind = .release b → eventEnding p e.facts r =
      if entries w.facts ≠ [] ∧ goes = .released then some ⟨.complete, .none, some .released⟩ else none := fun r hk => by
    rw [hefacts, eventEnding_release_of_way hfacts hway hnever hk, hlast]
  have hvflag : (v.bay b).flag p = decide (x.state ≠ .empty) := by
    classical
    rw [hvfinish, e.finish_flag, if_neg, hebay, if_pos rfl, hflag]
    rintro ⟨⟨r, -, hk, e', he', ht⟩, -⟩
    rw [hrelease r hk] at he'
    split at he'
    · exact ht (congrArg Ending.termination (Option.some.inj he').symm)
    · cases he'
  have hvz : (v.bay b).sansFlags = w.bay.sansFlags := by
    rw [hv, State.bayEvent_sansFlags, if_pos rfl, huctx, hubay]
  have hvstate : (v.bay b).state = goes := (Bay.state_of_sansFlags hvz).trans hstate
  obtain ⟨hout, hdone⟩ := e.finish_slots p
  rw [heslots.1, List.filter_append] at hout
  rw [heslots.1, heslots.2, List.filterMap_append] at hdone
  rw [← hvfinish] at hout hdone
  set os := (s.port p).outstanding.filter fun r => (eventEnding p e.facts r).isNone with hos
  have hostags : ∀ r ∈ os, r.tag ≠ tag := fun r hr => htags r (List.mem_filter.mp hr).1
  have hnew := hrelease new rfl
  have hvslots : (v.port p).outstanding = os ++ [new] ∨ (v.port p).outstanding = os ∧ (v.bay b).state = .released := by
    rw [hout]
    by_cases hended : entries w.facts ≠ [] ∧ goes = .released
    · rw [if_pos hended] at hnew
      exact .inr ⟨by simp [hnew], hvstate.trans hended.2⟩
    · rw [if_neg hended] at hnew
      exact .inl (by simp [hnew])
  obtain ⟨hznow, hzframe, hzarb, hzport, hzout, hzdone, hzbay⟩ :=
    State.endAccepted_release (new := new) timeout rfl hostags hvslots
  set z := v.endAccepted p new.tag (v.orExpireAtOnce b timeout (v.releaseAtAcceptance b)) with hz
  have hspec := State.reply_spec p 4 .accepted z
  have hexec : exec (.releaseBay dt p tag (BitVec.ofNat 8 b.val) timeout) s = .next (z.reply p 4 .accepted) :=
    exec_releaseBay_started dt p hs tag _ timeout (bayOf_ofNat b) (PortUnit.refusesRequest_eq_none hslots htags)
  have hbay : ∀ d, (z.reply p 4 .accepted).bay d = z.bay d := z.bay_reply p 4 .accepted
  have hzz : (z.bay b).sansFlags = w.bay.sansFlags := (v.endAccepted_sansFlags p _ _ b).trans hvz
  have hzstate : (z.bay b).state = goes := (Bay.state_of_sansFlags hzz).trans hstate
  have hentered : entries w.facts = [] ↔ goes = x.state := by
    rw [← hlast]
    exact ⟨fun h => by rw [h]; rfl, BayState.eq_nil_of_ways hway⟩
  have hdemand : w.bay.demand p = .stop := by
    by_cases hs : x.state = .empty
    · rw [hw, Work.askRelease_empty p hs]
      exact (Bay.merged_eq_stop_iff_demand x).mp (Bay.merged_stop_of_allowed hx.allowed (.inl hs)) p
    · exact Work.askRelease_demand p c hs
  have hframe : BayFrame b s (z.reply p 4 .accepted) :=
    (BayFrame.advance b s dt).trans <| (BayFrame.accept b (s.advance dt) p tag _ _).trans <|
      (State.bayEvent_bayFrame b (Work.askRelease p) u).trans <| hzframe.trans <| .reply b z p 4 .accepted
  have htnow : (z.reply p 4 .accepted).now = now := by
    rw [State.reply_now, hznow, hv, State.bayEvent_now, hu, State.accept_now, State.advance_now]
  have henow : e.st.now = now := by
    rw [← Event.finish_now, ← hvfinish, hv, State.bayEvent_now, hu, State.accept_now, State.advance_now]
  refine ⟨_, hexec, ?_, ?_, hframe, ?_, ?_, ?_, ?_, ?_⟩
  · exact htnow
  · rw [hspec.port, hzport, hv, State.bayEvent_frame_status, huport]
    rfl
  · rw [hbay, Bay.demand_of_sansFlags hzz]
    exact hdemand
  · rw [hbay, Bay.demand_of_sansFlags hzz]
    exact Work.askRelease_demand_peer p c x
  · rw [hbay, hzstate]
  · rw [hbay, (Bay.history_of_sansFlags hzz).1]
    exact ((Act.askRelease p).run_since c x).trans (if_congr hentered rfl rfl)
  · intro reason ending
    have hending : ending = askEnding goes timeout reason := rfl
    have hsame : ending = askEnding (v.bay b).state timeout (v.holdReason b) := by
      rw [hending, hvstate]
      by_cases hempty : x.state = .empty
      · rw [show goes = .empty by rw [hgoes]; simp only [Bay.askExit, hempty]]
        rfl
      · congr 1
        refine State.holdReason_congr b ?_ ?_ ?_ ?_ fun d => ?_
        · rw [State.setBay_now, State.reply_now, hznow]
        · rw [State.setBay_motion, hspec.motion, hzframe.motion]
        · rw [State.setBay_arbiter, hspec.arbiter, hzarb]
        · rw [State.setBay_store, hspec.store, hzframe.store]
        · rw [State.bay_setBay_eq]
          split
          next hd =>
            rw [hd, hbay, hzbay]
            have hset : (v.bay b).flag p = true := by rw [hvflag]; simpa using hempty
            split
            · exact Bay.sansLed_setFlag_unflagged p v.ctx hset
            · rw [Bay.setFlag_self hset]
          next hd => rw [hbay, hzframe.others d hd]
    rw [← hsame] at hzout hzdone hzbay
    have hany : os.any (fun r => r.kind = .release b) = true → x.state ≠ .empty := by
      rw [List.any_eq_true]
      rintro ⟨r, hr, hk⟩ hempty
      have hst := hstands r (List.mem_filter.mp hr).1
      rw [State.requestStands, of_decide_eq_true hk] at hst
      simp [show (s.bay b).state = .empty from hempty] at hst
    have hempty : x.state = .empty → ending = some (.aborted, .removed) := fun h => by
      rw [hending, show goes = .empty by rw [hgoes]; simp only [Bay.askExit, h]]
      rfl
    have htslots : ((z.reply p 4 .accepted).port p).outstanding = (z.port p).outstanding ∧
        ((z.reply p 4 .accepted).port p).completions = (z.port p).completions := by
      rw [hspec.port]
      exact ⟨rfl, rfl⟩
    have hothers : ∀ r ∈ (s.port p).outstanding,
        (eventEnding p e.facts r).isNone = (r.endedBy (fun _ => false) s (z.reply p 4 .accepted)).isNone ∧
          (eventEnding p e.facts r).map (e.st.record r) =
            (r.endedBy (fun _ => false) s (z.reply p 4 .accepted)).map (r.recordAt now) := fun r hr => by
      rw [← henow]
      refine e.request_ended ?_
      by_cases hb : r.kind.bay? = some b
      · right
        have hwent' : (s.bay b).Went ((z.reply p 4 .accepted).bay b) (entries w.facts) := by
          rw [hbay]
          have hp := hzz
          simp only [Bay.sansFlags, Bay.mk.injEq] at hp
          exact hwent.congr (Bay.state_of_sansFlags hzz) (by simp only [hp])
        have hejector : ((z.reply p 4 .accepted).bay b).ejectorOpen = (s.bay b).ejectorOpen := by
          rw [hbay, (Bay.KeepsInputs.of_sansFlags hzz).ejectorOpen]
          exact Work.askRelease_ejectorOpen p c x
        have hshown := eventEnding_shown (head := []) (raised := fun _ => false) (.none hejector rfl) hfacts hwent'
          (Bay.loading_of_phase htimers) hb (hstands r hr)
        rw [hbay, hzstate, List.nil_append, ← hefacts] at hshown
        refine ⟨b, hb, ?_⟩
        rw [hebay, if_pos rfl, hstate]
        exact hshown
      · left
        refine ⟨eventEnding_eq_none fun d hd f hf => ?_, Request.endedBy_of_same fun d hd => ⟨hframe.others d ?_, rfl⟩⟩
        · rw [hefacts] at hf
          obtain ⟨g, -, hg⟩ := List.mem_map.mp hf
          exact hb (hd.trans (congrArg (some ·.1) hg.symm))
        · rintro rfl
          exact hb hd
    refine ⟨?_, ?_, ?_⟩
    · rw [htslots.1, hzout, hbay, hzbay]
      by_cases h1 : ending = none
      · have hne : x.state ≠ .empty := fun h => by rw [hempty h] at h1; cases h1
        simp [h1, hvflag, hne]
      · by_cases h2 : ending = some (.complete, .none)
        · have hne : x.state ≠ .empty := fun h => by rw [hempty h] at h2; cases h2
          simp [h2, hvflag, hne]
        · cases hos' : os.any fun r => r.kind = .release b with
          | false => simp [h1, h2, hos']
          | true => simp [h1, h2, hos', hvflag, hany hos']
    · rw [htslots.1, hzout]
      exact congrArg (· ++ _) (List.filter_congr fun r hr => (hothers r hr).1)
    · rw [htslots.2, hzdone, hdone]
      have hdone' : (s.port p).outstanding.filterMap (fun r => (eventEnding p e.facts r).map (e.st.record r)) = _ :=
        List.filterMap_congr fun r hr => (hothers r hr).2
      rw [hdone', htnow, ← List.append_assoc, List.append_assoc]
      refine (List.append_right_inj _).mpr ?_
      have hrecord : ∀ (σ : State) (ending : Ending), σ.now = now → (σ.bay b).state = goes →
          σ.record new ending =
            { tag := tag, kind := .release, termination := ending.termination, reason := ending.reason, bay := some b
              bayState := some (ending.entered.getD goes), elapsed := 0 } := fun σ ending hn hst => by
        simp [State.record, new, RequestKind.bay?, RequestKind.completion, hst, hn, millis]
      by_cases hended : entries w.facts ≠ [] ∧ goes = .released
      · rw [if_pos hended] at hnew
        have hcomplete : ending = some (.complete, .none) := by rw [hending, hended.2]; rfl
        have hvout : (v.port p).outstanding = os := by rw [hout]; simp [hnew]
        rw [if_pos hvout, hcomplete, List.append_nil]
        simp only [List.filterMap_cons, List.filterMap_nil, hnew, Option.map_some]
        rw [hrecord e.st _ henow (by rw [hebay, if_pos rfl, hstate]), hended.2]
        rfl
      · rw [if_neg hended] at hnew
        have hvout : (v.port p).outstanding ≠ os := by rw [hout]; simp [hnew]
        rw [if_neg hvout]
        simp only [List.filterMap_cons, List.filterMap_nil, hnew, Option.map_none, List.nil_append]
        have hvnow : v.now = now := by rw [← hznow, ← htnow, State.reply_now]
        cases ending with
        | none => rfl
        | some e' => exact congrArg (· :: []) (hrecord v _ hvnow hvstate)

end Sys2Proof
end

section
/-!
The entries of the sequencer, whatever the spindle does: the states each may enter, in order (R27).
-/

namespace Sys2Proof.Machine

/-- The ways to SPUN, and on where its checks lead, short of a new load (R41). -/
def BayState.waysSpun : List (List BayState) := [[.faulted], [.spun]] ++ BayState.waysDown

/-- A chain of entries enters one of the lists of states. -/
def Work.Adds (w v : Work) (ls : List (List BayState)) : Prop := ∃ l ∈ ls, entries v.facts = entries w.facts ++ l

theorem Work.Adds.mono {w v : Work} {ls ls' : List (List BayState)} (h : w.Adds v ls) (hls : ∀ l ∈ ls, l ∈ ls') :
    w.Adds v ls' := by
  obtain ⟨l, hl, he⟩ := h
  exact ⟨l, hls l hl, he⟩

section
variable (c : Ctx) {w : Work}

theorem Work.toIdle_adds (hs : w.bay.state = .released → w.bay.releaseCondition = false) :
    w.Adds (w.toIdle c) [[.idle], [.idle, .queued], [.idle, .released]] :=
  ⟨w.bay.restWay, w.bay.restWay_mem, Work.toIdle_entries c w hs⟩

/-- What does not rest released does not come to RELEASED (R31, R159). -/
theorem Work.toIdle_adds_of_not_released (hr : w.bay.releaseCondition = false) :
    w.Adds (w.toIdle c) [[.idle], [.idle, .queued]] := by
  refine ⟨w.bay.restWay, ?_, Work.toIdle_entries c w fun _ => hr⟩
  unfold Bay.restWay
  rw [Bay.restExit_eq, hr]
  cases w.bay.joins <;> decide

/-- What may not join does not come to QUEUED (R31). -/
theorem Work.toIdle_adds_of_not_joins (hs : w.bay.state = .released → w.bay.releaseCondition = false)
    (hj : w.bay.joins = false) : w.Adds (w.toIdle c) [[.idle], [.idle, .released]] := by
  refine ⟨w.bay.restWay, ?_, Work.toIdle_entries c w hs⟩
  unfold Bay.restWay
  rw [Bay.restExit_eq, hj]
  cases w.bay.releaseCondition <;> decide

theorem Work.idleTest_adds : w.Adds (w.idleTest c) [[], [.queued], [.released]] := by
  refine ⟨_, ?_, Work.idleTest_entries c w⟩
  have hmem := w.bay.restExit_mem
  generalize w.bay.restExit = st at hmem
  revert st
  decide

theorem Work.toSpinningDown_adds (mayWatch : Bool) : w.Adds (w.toSpinningDown c mayWatch) BayState.waysDown := by
  obtain ⟨-, -, e⟩ | ⟨-, e⟩ := w.toSpinningDown_cases c mayWatch <;> rw [e]
  · obtain ⟨l, hl, he⟩ := Work.toIdle_adds c
      (w := ((w.edit (Bay.dropSpin c)).enter c .spinningDown).edit (Bay.startSpindown c mayWatch)) (by simp)
    refine ⟨.spinningDown :: l, ?_, he.trans (by simp)⟩
    clear he
    revert l
    decide
  · exact ⟨[.spinningDown], by decide, by simp⟩

theorem Work.spunTest_adds (hk : w.bay.prkOn = true) :
    w.Adds (w.spunTest c) ([[], [.loading]] ++ BayState.waysDown) := by
  obtain ⟨-, e⟩ | ⟨-, -, e⟩ | ⟨-, -, e⟩ := w.spunTest_cases c <;> rw [e]
  · exact (Work.toSpinningDown_adds c false).mono fun l => List.mem_append_right _
  · exact ⟨[.loading], by decide, Work.toLoading_entries hk⟩
  · exact ⟨[], by decide, by simp⟩

theorem Work.toLoading_phase (hk : w.bay.prkOn = true) : (w.toLoading c).bay.phase = some .seek := by
  unfold Work.toLoading
  dsimp only
  rw [if_pos (by simpa using hk), Work.edit_bay]

/-- An entry to SPUN leads on as its checks say; a new load and a stray head are told apart (R40, R41). -/
theorem Work.toSpun_adds (fromSpinup : Bool) (hk : fromSpinup = true ∨ w.bay.prkOn = true) :
    w.Adds (w.toSpun c fromSpinup) BayState.waysSpun ∨
      (w.bay.mayLoad c = true ∧ w.Adds (w.toSpun c fromSpinup) [[.spun, .loading]] ∧
        (w.toSpun c fromSpinup).bay.phase = some .seek) ∨
      (fromSpinup = true ∧ w.Adds (w.toSpun c fromSpinup) [[.spun, .retracting]]) := by
  unfold Work.toSpun
  split
  · exact .inl ⟨[.faulted], by decide, by simp⟩
  split
  · exact .inl ((Work.toSpinningDown_adds c false).mono fun l => List.mem_append_right _)
  next hdown =>
    have hs : entries (w.enter c .spun).facts = entries w.facts ++ [.spun] := by simp
    dsimp only
    split
    next hstray =>
      simp only [Bool.and_eq_true] at hstray
      exact .inr (.inr ⟨hstray.1, _, List.mem_singleton_self _, by simp⟩)
    next hstray =>
      have hk : (w.enter c .spun).bay.prkOn = true := by
        obtain hk | hk := hk
        · simpa [hk] using hstray
        · simpa using hk
      have hdown : (w.enter c .spun).bay.mustSpinDown c = false := by simpa [Bay.mustSpinDown] using hdown
      obtain ⟨h, -⟩ | ⟨-, hm, e⟩ | ⟨-, -, e⟩ := (w.enter c .spun).spunTest_cases c
      · rw [hdown] at h; cases h
      · refine .inr (.inl ⟨by simpa [Bay.mayLoad, Bay.dwellPassed] using hm, ⟨_, List.mem_singleton_self _, ?_⟩, ?_⟩)
        · rw [e, Work.toLoading_entries hk, hs]; simp
        · rw [e, Work.toLoading_phase c hk]
      · exact .inl ⟨[.spun], by decide, by rw [e, Work.edit_facts, hs]⟩

/-- An entry to SPUN of a bay that may not load. -/
theorem Work.toSpun_adds_of_no_load (hk : w.bay.prkOn = true) (hl : w.bay.mayLoad c = false) :
    w.Adds (w.toSpun c false) BayState.waysSpun := by
  obtain h | ⟨h, -⟩ | ⟨h, -⟩ := Work.toSpun_adds c false (.inr hk)
  · exact h
  · rw [hl] at h; cases h
  · cases h

/-- The heads leave the platters, and the bay does not load again at once (R41, R87). -/
theorem Work.toUnloading_adds (hl : w.bay.merged ≠ .load ∨ c.motion ≠ .quiet ∨ w.bay.ejectorOpen = true) :
    w.Adds (w.toUnloading c) ([.unloading] :: BayState.waysSpun.map fun l => .unloading :: l) := by
  have key : ∀ v : Work, v.bay.prkOn = true → v.bay.mayLoad c = false → entries v.facts = entries w.facts ++ [.unloading] →
      w.Adds (v.toSpun c false) ([.unloading] :: BayState.waysSpun.map fun l => .unloading :: l) := by
    intro v hk hm hv
    obtain ⟨l, hl, he⟩ := Work.toSpun_adds_of_no_load c hk hm
    exact ⟨.unloading :: l, List.mem_cons_of_mem _ (List.mem_map_of_mem hl), by simp [he, hv]⟩
  unfold Work.toUnloading
  dsimp only
  split
  next hk =>
    refine key _ hk ?_ (by simp)
    simp only [Bay.mayLoad, Bool.and_eq_false_iff, decide_eq_false_iff_not, Bool.not_eq_false']
    simp
    tauto
  next => exact ⟨[.unloading], List.mem_cons_self .., by simp⟩

theorem Work.retractParked_adds (hk : w.bay.prkOn = true) :
    w.Adds (w.retractParked c) ([.spun, .loading] :: BayState.waysSpun) := by
  have hdown : ∀ l ∈ BayState.waysDown, l ∈ [.spun, .loading] :: BayState.waysSpun := by decide
  have hspun : ∀ l ∈ BayState.waysSpun, l ∈ [.spun, .loading] :: BayState.waysSpun := fun _ => List.mem_cons_of_mem _
  unfold Work.retractParked
  dsimp only
  split
  · split
    · exact ⟨[.faulted], by decide, by simp⟩
    · exact (Work.toSpinningDown_adds c false).mono hdown
  · exact ⟨[.faulted], by decide, by simp⟩
  · obtain h | ⟨-, h, -⟩ | ⟨h, -⟩ := Work.toSpun_adds c (w := w.edit fun x => { x.park c with rtr := false }) false (.inr hk)
    · exact h.mono hspun
    · exact h.mono (by decide)
    · cases h

end

end Sys2Proof.Machine
end

section
/-!
The way of a bay in each response (R27).
-/

namespace Sys2Proof.Machine

/-- A response took its bay `x` one of the bay's ways, or from SETTLE by way of SPUN into a new load (R40, R80). -/
def Work.Wends (x : Bay) (v : Work) : Prop :=
  (entries v.facts ∈ x.state.ways ∧
      (x.state = .loading → entries v.facts = [] → x.phase = some .settle → v.bay.phase ≠ some .seek)) ∨
    (x.state = .loading ∧ x.phase = some .settle ∧ v.bay.phase = some .seek ∧ entries v.facts = [.spun, .loading])

theorem BayState.nil_mem_ways (st : BayState) : [] ∈ st.ways := by
  cases st <;> decide

namespace Work
variable {c : Ctx} {x : Bay} {v w : Work} {st : BayState} {ls : List (List BayState)}

theorem wends_stay (he : entries v.facts = [])
    (hp : v.bay.phase = x.phase ∨ x.phase ≠ some .settle ∨ v.bay.phase ≠ some .seek) : Wends x v := by
  refine .inl ⟨he ▸ BayState.nil_mem_ways _, fun _ _ hsettle => ?_⟩
  obtain hp | hp | hp := hp
  · rw [hp, hsettle]; decide
  · exact absurd hsettle hp
  · exact hp

theorem Adds.wends (h : w.Adds v ls) (hw : entries w.facts = []) (hs : x.state = st)
    (hls : ∀ l ∈ ls, l ∈ st.ways ∧ (st = .loading → l ≠ [])) : Wends x v := by
  obtain ⟨l, hl, he⟩ := h
  rw [hw, List.nil_append] at he
  subst he hs
  exact .inl ⟨(hls _ hl).1, fun hs hnil => absurd hnil ((hls _ hl).2 hs)⟩

theorem adds_toFaulted (kind : FaultKind) (keepSpin : Bool) : w.Adds (w.toFaulted c kind keepSpin) [[.faulted]] :=
  ⟨_, List.mem_singleton_self _, by simp⟩

theorem adds_toRetracting (cause : Cause) : w.Adds (w.toRetracting c cause) [[.retracting]] :=
  ⟨_, List.mem_singleton_self _, by simp⟩

theorem adds_toReady : w.Adds (w.toReady c) [[.ready]] := ⟨_, List.mem_singleton_self _, by simp⟩

theorem adds_toLoading (hk : w.bay.prkOn = true) : w.Adds (w.toLoading c) [[.loading]] :=
  ⟨_, List.mem_singleton_self _, toLoading_entries hk⟩

/-! ### A demand column written -/

theorem wends_releasedTest (hx : x.state = .released) (hw : entries w.facts = [])
    (hp : w.bay.phase = x.phase) : Wends x (w.releasedTest c) := by
  unfold releasedTest
  split
  · exact wends_stay hw (.inl hp)
  next hr => exact (toIdle_adds_of_not_released c (by simpa using hr)).wends hw hx (by decide)

theorem wends_demandWritten (hx : x.stateAllowed c.motion = true) (hz : w.bay.sansDemands = x.sansDemands)
    (hw : entries w.facts = []) : Wends x (w.demandWritten c x.merged) := by
  obtain ⟨hstate, -, -, hprk, -⟩ := Bay.keeps_of_sansDemands hz
  have hphase : w.bay.phase = x.phase := by
    simp only [Bay.sansDemands, Bay.sansFlags, Bay.mk.injEq] at hz
    simp only [hz]
  have hstay : Wends x w := wends_stay hw (.inl hphase)
  have hsettled : ∀ old : Demand,
      entries (if old ≠ w.bay.merged ∧ w.bay.merged = .stop then w.edit Bay.clearRetry else w).facts = [] := fun _ => by
    split <;> exact hw
  unfold demandWritten
  dsimp only
  split
  next hst => exact (idleTest_adds c).wends (hsettled _) (hstate.symm.trans hst) (by decide)
  next hst => exact wends_releasedTest (hstate.symm.trans hst) hw hphase
  next hst =>
    split
    next hc =>
      refine (toIdle_adds_of_not_joins c (w := w.edit Bay.clearRetry) (fun h => ?_) ?_).wends hw (hstate.symm.trans hst)
        (by decide)
      · cases hst.symm.trans h
      · have hm : (w.edit Bay.clearRetry).bay.merged = .stop := hc.2
        rw [Bay.joins, hm]
        rfl
    next => exact hstay
  next hst =>
    split
    next hc =>
      exact (toSpinningDown_adds c false (w := w.edit Bay.clearRetry)).wends hw (hstate.symm.trans hst) (by decide)
    next => exact hstay
  next hst =>
    split
    next =>
      have hk := (Bay.spun_of_allowed hx (hstate.symm.trans hst)).2
      exact (spunTest_adds c (hprk.trans hk)).wends hw (hstate.symm.trans hst) (by decide)
    next => exact hstay
  next hst =>
    split
    next hc =>
      split
      · exact (adds_toRetracting _).wends hw (hstate.symm.trans hst) (by decide)
      · exact (toUnloading_adds c (.inl hc.2)).wends hw (hstate.symm.trans hst) (by decide)
    next => exact hstay
  next hst =>
    split
    next hc => exact (toUnloading_adds c (.inl hc.2)).wends hw (hstate.symm.trans hst) (by decide)
    next => exact hstay
  next => exact wends_stay (hsettled _) (.inl (by split <;> exact hphase))
  all_goals exact hstay

/-! ### A motion change, and the ends of the filters -/

theorem wends_motionChanged {m : Motion} (hx : x.stateAllowed m = true) :
    Wends x (motionChanged c ⟨x, []⟩) := by
  have hstay : Wends x ⟨x, []⟩ := wends_stay rfl (.inl rfl)
  have hoff : ((c.motion = .rough : Bool) || (c.motion = .transit) || (c.motion = .blind)) = true → c.motion ≠ .quiet := by
    cases c.motion <;> simp
  unfold motionChanged
  dsimp only
  split
  next hst =>
    split
    · exact (toSpinningDown_adds c false (w := edit Bay.clearRetry ⟨x, []⟩)).wends rfl hst (by decide)
    · exact hstay
  next hst => exact (spunTest_adds c (w := ⟨x, []⟩) (Bay.spun_of_allowed hx hst).2).wends rfl hst (by decide)
  next hst =>
    split
    · split
      · exact (adds_toRetracting _).wends rfl hst (by decide)
      · exact hstay
    · split
      · exact (adds_toRetracting _).wends rfl hst (by decide)
      · split
        next ho => exact (toUnloading_adds c (w := ⟨x, []⟩) (.inr (.inl (hoff ho)))).wends rfl hst (by decide)
        next => exact hstay
  next hst =>
    split
    · exact (adds_toRetracting _).wends rfl hst (by decide)
    · split
      next ho => exact (toUnloading_adds c (w := ⟨x, []⟩) (.inr (.inl (hoff ho)))).wends rfl hst (by decide)
      next => exact hstay
  next hst =>
    split
    · exact (adds_toRetracting _).wends rfl hst (by decide)
    · exact hstay
  all_goals exact hstay

section
variable (hs : w.bay.state = x.state) (hp : w.bay.phase = x.phase) (hw : entries w.facts = [])
include hs hp hw

theorem wends_ejectorOpened (hk : x.state = .spun → w.bay.prkOn = true) (ho : w.bay.ejectorOpen = true) :
    Wends x (w.ejectorOpened c) := by
  have hstay : Wends x w := wends_stay hw (.inl hp)
  have hj : (w.edit Bay.clearRetry).bay.joins = false := by
    simp [Bay.joins, Bay.clearRetry, ho]
  unfold ejectorOpened
  split
  next hst => exact (idleTest_adds c (w := w.edit Bay.clearRetry)).wends hw (hs.symm.trans hst) (by decide)
  next hst =>
    refine (toIdle_adds_of_not_joins c (fun h => ?_) hj).wends hw (hs.symm.trans hst) (by decide)
    cases hst.symm.trans h
  next hst =>
    exact (toSpinningDown_adds c false (w := w.edit Bay.clearRetry)).wends hw (hs.symm.trans hst) (by decide)
  next hst => exact (spunTest_adds c (hk (hs.symm.trans hst))).wends hw (hs.symm.trans hst) (by decide)
  next hst =>
    split
    · exact (adds_toRetracting _).wends hw (hs.symm.trans hst) (by decide)
    · exact (toUnloading_adds c (.inr (.inr ho))).wends hw (hs.symm.trans hst) (by decide)
  next hst => exact (toUnloading_adds c (.inr (.inr ho))).wends hw (hs.symm.trans hst) (by decide)
  next hst => exact (adds_toRetracting _).wends hw (hs.symm.trans hst) (by decide)
  all_goals exact hstay

theorem wends_ejectorClosed (hk : x.state = .spun → w.bay.prkOn = true) : Wends x (w.ejectorClosed c) := by
  unfold ejectorClosed
  split
  next hst => exact (idleTest_adds c).wends hw (hs.symm.trans hst) (by decide)
  next hst => exact wends_releasedTest (hs.symm.trans hst) hw hp
  next hst => exact (spunTest_adds c (hk (hs.symm.trans hst))).wends hw (hs.symm.trans hst) (by decide)
  next => exact wends_stay hw (.inl hp)

theorem wends_fltAsserted : Wends x (w.fltAsserted c) := by
  unfold fltAsserted
  split
  case h_9 | h_10 | h_11 | h_12 => exact wends_stay hw (.inl hp)
  case h_6 hst | h_7 hst | h_8 hst => exact (adds_toRetracting _).wends hw (hs.symm.trans hst) (by decide)
  all_goals
    next hst => exact (adds_toFaulted _ _).wends hw (hs.symm.trans hst) (by decide)

theorem wends_prkAsserted (hk : w.bay.prkOn = true) : Wends x (w.prkAsserted c) := by
  have hstay : Wends x w := wends_stay hw (.inl hp)
  unfold prkAsserted
  split
  next hst =>
    split
    · unfold watchParked
      dsimp only
      split
      · refine (toIdle_adds c (w := w.edit fun x => { x.park c with unloadWatch := none }) fun h => ?_).wends hw
          (hs.symm.trans hst) (by decide)
        cases hst.symm.trans h
      · split
        · exact (adds_toFaulted (w := w.edit fun x => { x.park c with unloadWatch := none }) _ _).wends hw
            (hs.symm.trans hst) (by decide)
        · exact wends_stay hw (.inl hp)
    · exact hstay
  next hst =>
    split
    next hsettle =>
      obtain h | ⟨-, ⟨l, hl, he⟩, hseek⟩ | ⟨h, -⟩ := toSpun_adds c (w := w.edit (Bay.park c)) false (.inr hk)
      · exact h.wends hw (hs.symm.trans hst) (by decide)
      · refine .inr ⟨hs.symm.trans hst, hp.symm.trans hsettle, hseek, he.trans ?_⟩
        rw [edit_facts, hw, List.mem_singleton.mp hl]
        exact List.nil_append _
      · cases h
    next => exact hstay
  case h_3 hst | h_4 hst =>
    obtain h | ⟨-, h, -⟩ | ⟨h, -⟩ := toSpun_adds c (w := w.edit (Bay.park c)) false (.inr hk)
    · exact h.wends hw (hs.symm.trans hst) (by decide)
    · exact h.wends hw (hs.symm.trans hst) (by decide)
    · cases h
  next hst =>
    split
    · exact hstay
    · exact (retractParked_adds c hk).wends hw (hs.symm.trans hst) (by decide)
  all_goals exact hstay

theorem wends_prkDropped : Wends x (w.prkDropped c) := by
  unfold prkDropped
  split
  next hst => exact (adds_toRetracting _).wends hw (hs.symm.trans hst) (by decide)
  next hst =>
    split
    next hseek =>
      unfold startSettle
      split
      · exact adds_toReady.wends hw (hs.symm.trans hst) (by decide)
      · exact wends_stay hw (.inr (.inr (by simp)))
    next => exact wends_stay hw (.inl hp)
  next => exact wends_stay hw (.inl hp)

theorem wends_speedLost : Wends x (w.speedLost c) := by
  unfold speedLost
  split
  next hst => exact (adds_toFaulted _ _).wends hw (hs.symm.trans hst) (by decide)
  case h_5 => exact wends_stay hw (.inl hp)
  all_goals
    next hst => exact (adds_toRetracting _).wends hw (hs.symm.trans hst) (by decide)

end

theorem wends_pulse : Wends x (pulse c ⟨x, []⟩) := by
  have hstay : ∀ y : Bay, y.phase = x.phase → Wends x ⟨y, []⟩ := fun _ hp => wends_stay rfl (.inl hp)
  unfold pulse
  dsimp only
  split
  · exact hstay _ rfl
  split
  · exact hstay _ rfl
  split
  · exact hstay _ rfl
  unfold periodMeasured
  dsimp only
  split
  · split
    · split
      next hdue =>
        have hst : x.state = .spinningUp := by
          simp only [Bay.atSpeedDue, Bool.and_eq_true, decide_eq_true_eq] at hdue
          exact hdue.1
        obtain h | ⟨-, h, -⟩ | ⟨-, h⟩ := toSpun_adds c (w := edit _ _) true (.inl rfl)
        all_goals exact h.wends rfl hst (by decide)
      next => exact hstay _ rfl
    · split
      · exact wends_speedLost rfl rfl rfl
      · exact hstay _ rfl
  · exact hstay _ rfl

theorem wends_inState {act : Work → Work} (hact : x.state = st → Wends x (act ⟨x, []⟩)) :
    Wends x (inState st act ⟨x, []⟩) := by
  unfold inState
  split
  exacts [hact ‹_›, wends_stay rfl (.inl rfl)]

end Work

/-- Every response takes a bay one of its ways, where a grant finds it QUEUED and CLEAR FAULT finds it FAULTED. -/
theorem Act.run_wends (a : Act) (c : Ctx) {x : Bay} (hx : x.stateAllowed c.motion = true)
    (hcleared : a = .faultCleared → x.state = .faulted) (hgranted : ∀ sn, a = .granted sn → x.state = .queued) :
    Work.Wends x (a.run c ⟨x, []⟩) := by
  have hstay : ∀ y : Bay, y.phase = x.phase → Work.Wends x ⟨y, []⟩ := fun _ hp => Work.wends_stay rfl (.inl hp)
  cases a with
  | writeDemand p level =>
    by_cases hp : x.present = true
    · have h := Work.wends_demandWritten (w := ⟨x.written p level c, writtenFacts p level⟩) hx
        (x.sansDemands_written p level c) (by unfold writtenFacts; split <;> rfl)
      rw [← Work.writeDemand_present p level c hp] at h
      exact h
    · have h := Work.writeDemand_absent p level c (by simpa using hp)
      rw [Act.run, h]
      exact hstay _ rfl
  | askRelease p =>
    by_cases hs : x.state = .empty
    · rw [Act.run, Work.askRelease_empty p hs]
      exact hstay _ rfl
    · rw [Act.run, Work.askRelease_eq p hs]
      exact Work.wends_demandWritten hx (x.sansDemands_asked p c) rfl
  | restartFlag p =>
    dsimp only [Act.run, Work.restartFlag]
    split
    next hst => exact Work.wends_releasedTest (by simpa using hst) rfl (by simp)
    next => exact hstay _ (by simp)
  | faultCleared =>
    have hst := hcleared rfl
    dsimp only [Act.run, Work.faultCleared]
    split
    · exact (Work.adds_toRetracting (w := Work.edit _ _) _).wends rfl hst (by decide)
    · exact (Work.toSpinningDown_adds c (w := Work.edit _ _) true).wends rfl hst (by decide)
  | granted sn =>
    exact Work.Adds.wends (w := ⟨x, []⟩) ⟨[.spinningUp], List.mem_singleton_self _, by simp [Act.run]⟩ rfl
      (hgranted sn rfl) (by decide)
  | presence =>
    obtain ⟨-, e⟩ | hr | ⟨-, hp, ⟨hst, -, e⟩ | ⟨hst, -, e⟩ | ⟨hst, -⟩⟩ := Act.run_presence_cases c x
    · rw [e]; exact hstay _ rfl
    · rw [Act.run_removes hr]
      have hne := (Bay.present_iff_of_allowed hx).mp hr.2.2
      refine .inl ⟨?_, fun _ h => by simp [Work.toEmpty] at h⟩
      rw [show entries (Work.toEmpty c _).facts = [.empty] from rfl]
      revert hne
      cases x.state <;> decide
    · rw [e]
      exact Work.Adds.wends (w := ⟨x.inserted, []⟩) ⟨[.released], List.mem_singleton_self _, by simp⟩ rfl hst (by decide)
    · rw [e]
      have hx' : x.merged = .stop := Bay.merged_stop_of_allowed hx (.inl hst)
      have hm : x.inserted.merged = .stop := hx'
      refine (Work.toIdle_adds_of_not_joins c (w := ⟨x.inserted, []⟩) (fun h => ?_) ?_).wends rfl hst (by decide)
      · cases hst.symm.trans h
      · rw [Bay.joins, hm]
        rfl
    · exact absurd (Bay.present_of_allowed hx hst) (by simp [hp])
  | ejector =>
    dsimp only [Act.run, Work.ejectorSettled]
    split
    · exact hstay _ rfl
    · have hk : x.state = .spun → (Bay.relight c { x with ejectorOpen := x.ejc, ejcTimer := none }).prkOn = true :=
        fun h => by simpa using (Bay.spun_of_allowed hx h).2
      split
      next ho => exact Work.wends_ejectorOpened (by simp) (by simp) rfl hk (by simpa using ho)
      next => exact Work.wends_ejectorClosed (by simp) (by simp) rfl hk
  | flt =>
    dsimp only [Act.run, Work.fltFiltered]
    split
    · exact hstay _ rfl
    · split
      · exact Work.wends_fltAsserted rfl rfl rfl
      · split
        next hst => exact (Work.idleTest_adds c (w := Work.edit _ _)).wends rfl hst (by decide)
        next => exact hstay _ rfl
  | prk =>
    dsimp only [Act.run, Work.prkFiltered]
    split
    · exact hstay _ rfl
    · split
      next hon => exact Work.wends_prkAsserted rfl rfl rfl hon
      next => exact Work.wends_prkDropped rfl rfl rfl
  | pulse => exact Work.wends_pulse
  | absence =>
    dsimp only [Act.run, Work.absence]
    split
    exacts [Work.wends_speedLost rfl rfl rfl, hstay _ rfl]
  | quiet =>
    dsimp only [Act.run, Work.quietRanOut, Work.stopped]
    split
    · split
      next hst =>
        refine (Work.toIdle_adds c (w := Work.edit _ _) fun h => ?_).wends rfl hst.1 (by decide)
        cases hst.1.symm.trans h
      next => exact hstay _ rfl
    · exact hstay _ rfl
  | spinup =>
    refine Work.wends_inState fun hst => ?_
    dsimp only [Work.spinupTimedOut]
    split
    · exact (Work.toSpinningDown_adds c (w := Work.edit _ _) false).wends rfl hst (by decide)
    · exact (Work.adds_toFaulted (w := Work.edit _ _) _ _).wends rfl hst (by decide)
  | spindown =>
    refine Work.wends_inState fun hst => ?_
    dsimp only [Work.spindownTimedOut]
    split
    exacts [hstay _ rfl, (Work.adds_toFaulted _ _).wends rfl hst (by decide)]
  | watch => exact Work.wends_inState fun hst => (Work.adds_toFaulted _ _).wends rfl hst (by decide)
  | dwell =>
    refine Work.wends_inState fun hst => ?_
    have hk := (Bay.spun_of_allowed hx hst).2
    dsimp only [Work.dwellRanOut]
    split
    · exact (Work.adds_toLoading (w := Work.edit (fun x => { x with dwellTimer := none }) ⟨x, []⟩) hk).wends rfl hst
        (by decide)
    · exact hstay _ rfl
  | load => exact Work.wends_inState fun _ => Work.wends_stay rfl (.inr (.inr (by simp [Work.loadTimedOut])))
  | settle => exact Work.wends_inState fun hst => Work.adds_toReady.wends rfl hst (by decide)
  | withdraw =>
    refine Work.wends_inState fun hst => ?_
    dsimp only [Work.withdrawRanOut]
    split
    exacts [(Work.adds_toFaulted (w := Work.edit _ _) _ _).wends rfl hst (by decide),
      (Work.adds_toRetracting _).wends rfl hst (by decide)]
  | unload => exact Work.wends_inState fun hst => (Work.adds_toRetracting _).wends rfl hst (by decide)
  | retractPulse =>
    refine Work.wends_inState fun hst => ?_
    dsimp only [Work.pulseEnded]
    split
    next hk => exact (Work.retractParked_adds c hk).wends rfl hst (by decide)
    next => exact hstay _ rfl
  | retract =>
    refine Work.wends_inState fun hst => ?_
    dsimp only [Work.retractRanOut]
    split
    next hk => exact (Work.retractParked_adds c hk).wends rfl hst (by decide)
    next => exact (Work.adds_toFaulted _ _).wends rfl hst (by decide)

end Sys2Proof.Machine
end

section
/-!
What a response of a bay does to its flags, to RELEASED, and what it hands on (R11 to R13, R159, R163).
-/

namespace Sys2Proof.Machine

/-- What a response hands on: first the settled change of its ejector or a raised demand, then its entries (R154, R163);
`a` is the response, or none for a motion change. -/
inductive Bay.Tells (a : Option Act) (x y : Bay) (rest : List Fact) : List Fact → Prop where
  | entries : y.ejectorOpen = x.ejectorOpen → Tells a x y rest rest
  | ejector : a = some .ejector → Tells a x y rest (.ejectorSet y.ejectorOpen :: rest)
  | demand (p : Port) (level : Demand) : a = some (.writeDemand p level) → y.ejectorOpen = x.ejectorOpen →
      y.demand p ≠ .stop → Tells a x y rest (.demandRaised p :: rest)

theorem Bay.Tells.plain {a : Option Act} {x y : Bay} {rest fs : List Fact} (h : x.Tells a y rest fs)
    (hejector : a ≠ some .ejector) (hdemand : ∀ p level, a ≠ some (.writeDemand p level)) :
    rest = fs ∧ y.ejectorOpen = x.ejectorOpen := by
  cases h with
  | entries ho => exact ⟨rfl, ho⟩
  | ejector ha => exact absurd ha hejector
  | demand p level ha => exact absurd ha (hdemand p level)

/-- What a response makes of a bay: the way it goes, what it hands on, and its flags. -/
structure Bay.Responds (a : Option Act) (x y : Bay) (fs : List Fact) : Prop where
  went : x.Went y (entries fs)
  tells : ∃ rest, x.Tells a y rest fs ∧ ∀ f ∈ rest, f.entered? = none → f = .leftEmpty
  rests : (x.state = .released → x.freed = true) → y.state = .released → y.freed = true
  follows : x.flagsFollowDemands = true → y.flagsFollowDemands = true
  set : ∀ p, y.flag p = true → x.flag p = true ∨ a = some (.askRelease p)
  left : ∀ p, y.flag p = true → x.state = .released → y.state = .released
  keeps : ∀ p, x.flag p = true → (∀ st ∈ x.state :: entries fs, st ∉ [.empty, .faulted, .released]) →
    y.flag p = true ∨ a = some (.restartFlag p) ∨ .demandRaised p ∈ fs

theorem Work.Wends.went {x : Bay} {v : Work} (h : Work.Wends x v)
    (hs : v.bay.state = (x.state :: entries v.facts).getLast (by simp)) : x.Went v.bay (entries v.facts) := by
  rw [getLast_cons_eq_getLastD] at hs
  obtain ⟨hl, hphase⟩ | ⟨hst, hsettle, hseek, hl⟩ := h
  · exact .inl ⟨hl, hs, hphase⟩
  · exact .inr ⟨hst, by rw [hs, hl]; rfl, hsettle, hseek, hl⟩

section
variable {c : Ctx} {x : Bay}

/-- A flag set after a chain of entries that began in RELEASED: RELEASED was not left (R11). -/
theorem Work.Tracks.released_of_flag {w : Work} (h : w.Tracks c x) {p : Port} (hf : w.bay.flag p = true)
    (hs : x.state = .released) : w.bay.state = .released := by
  rw [h.flag p, Bool.and_eq_true, decide_eq_true_eq] at hf
  have hnil : entries w.facts = [] := by
    by_contra hne
    refine hf.2 ?_
    rw [hs, List.dropLast_cons_of_ne_nil hne]
    exact List.mem_cons_self ..
  rw [h.state]
  simp [hnil, hs]

/-- Edits of its own and a chain of entries make a response. -/
theorem Act.Opens.responds {a : Act} {u v : Work} (hu : a.Opens x u) (hg : Work.Goes c u v) (hw : Work.Wends x v)
    (hr : (x.state = .released → x.freed = true) → v.bay.state = .released → v.bay.freed = true) :
    Bay.Responds (some a) x v.bay v.facts := by
  have ht : v.Tracks c u.bay := hg.tracks (.start c u.bay u.facts hu.facts)
  obtain ⟨fs, hfs, hall⟩ := hg.facts
  have hrest : ∀ f ∈ fs, f.entered? = none → f = .leftEmpty := fun f hf hnone => by
    obtain hf | ⟨st, -, rfl⟩ := hall f hf
    · exact hf
    · cases hnone
  have hk := hg.inputs
  have hset : ∀ p, v.bay.flag p = true → u.bay.flag p = true := fun p hp => by
    rw [ht.flag p, Bool.and_eq_true] at hp
    exact hp.1
  refine ⟨hw.went ?_, ⟨fs, ?_, hrest⟩, hr, fun hx => ?_, fun p hp => ?_, fun p hp hs => ?_, fun p hp hne => ?_⟩
  · rw [ht.state]
    simp only [hu.state]
  · rw [hfs]
    cases hu.heads with
    | nothing hnil ho =>
      rw [hnil]
      exact .entries (hk.ejectorOpen.trans ho)
    | ejector ha hnil =>
      rw [hnil, ← hk.ejectorOpen]
      exact .ejector (congrArg some ha)
    | demand p level ha hnil ho hp =>
      rw [hnil]
      exact .demand p level (congrArg some ha) (hk.ejectorOpen.trans ho) (by rwa [hk.demand p])
  · have hux := hu.follows hx
    rw [Bay.flagsFollowDemands_iff] at hux ⊢
    intro p hp
    rw [hk.demand p]
    exact hux p (hset p hp)
  · obtain h | ⟨h, -⟩ | ⟨h, -⟩ := hu.flag p
    · exact .inl (h ▸ hset p hp)
    · exact .inr (congrArg some h)
    · rw [hset p hp] at h; cases h
  · exact ht.released_of_flag hp (hu.state.trans hs)
  · have hnot : decide (.released ∉ (u.bay.state :: entries v.facts).dropLast) = true :=
      decide_eq_true fun hm => hne _ (hu.state ▸ List.mem_of_mem_dropLast hm) (by simp)
    obtain h | ⟨-, h⟩ | ⟨-, h⟩ := hu.flag p
    · exact .inl (by rw [ht.flag p, h, hp, hnot]; rfl)
    · exact .inl (by rw [ht.flag p, h, hnot]; rfl)
    · refine .inr (h.imp (congrArg some) fun h => ?_)
      rw [hfs, h]
      exact List.mem_cons_self ..

theorem Work.motionChanged_responds {m : Motion} (hx : x.stateAllowed m = true) :
    Bay.Responds none x (Work.motionChanged c ⟨x, []⟩).bay (Work.motionChanged c ⟨x, []⟩).facts := by
  have hg : Work.Goes c ⟨x, []⟩ (Work.motionChanged c ⟨x, []⟩) := Work.Goes.stay.motionChanged
  obtain ⟨hwent, ⟨rest, htells, hrest⟩, hrests, hfollows, hset, hleft, hkeeps⟩ :=
    (Act.opens_self .load x).responds hg (Work.wends_motionChanged hx) hg.rests
  obtain ⟨rfl, ho⟩ := htells.plain (by simp) (by simp)
  exact ⟨hwent, ⟨_, .entries ho, hrest⟩, hrests, hfollows, fun p hp => .inl ((hset p hp).resolve_right (by simp)), hleft,
    fun p hp hne => (hkeeps p hp hne).imp_right (.imp_left (by simp))⟩

/-! ### RELEASED rests on a reason (R13, R159, R161) -/

/-- A test in RELEASED leaves it where the release condition does not hold. -/
theorem Work.releasedTest_freed {w : Work} (h : (w.releasedTest c).bay.state = .released) :
    (w.releasedTest c).bay.freed = true := by
  unfold Work.releasedTest at h ⊢
  split at h
  next hr =>
    rw [if_pos hr]
    simp only [Bay.releaseCondition, Bool.and_eq_true] at hr
    exact hr.2
  next hr =>
    rw [if_neg hr]
    have hg : Work.Goes c ((w.edit (Bay.dropSpin c)).enter c .idle) (w.toIdle c) := Work.Goes.stay.idleTest (by simp)
    exact hg.rests (fun h => by simp at h) h

theorem Work.demandWritten_released {w : Work} (old : Demand) (h : w.bay.state = .released) :
    w.demandWritten c old = w.releasedTest c := by
  simp [Work.demandWritten, h]

theorem Work.ejectorClosed_released {w : Work} (h : w.bay.state = .released) : w.ejectorClosed c = w.releasedTest c := by
  simp [Work.ejectorClosed, h]

theorem Act.Opens.freed {a : Act} {u : Work} (hu : a.Opens x u) (hclear : ∀ p, a ≠ .restartFlag p) (hejector : a ≠ .ejector)
    (hdemand : ∀ p level, a ≠ .writeDemand p level) (hx : x.freed = true) : u.bay.freed = true := by
  obtain ⟨hf, ho⟩ : u.facts = [] ∧ u.bay.ejectorOpen = x.ejectorOpen := by
    cases hu.heads with
    | nothing hf ho => exact ⟨hf, ho⟩
    | ejector ha => exact absurd ha hejector
    | demand p level ha => exact absurd ha (hdemand p level)
  have hflag : ∀ p, x.flag p = true → u.bay.flag p = true := fun p hp => by
    obtain h | ⟨-, h⟩ | ⟨-, h | h⟩ := hu.flag p
    · rw [h, hp]
    · exact h
    · exact absurd h (hclear p)
    · rw [hf] at h; cases h
  simp only [Bay.freed, Bool.or_eq_true] at hx ⊢
  obtain (hx | hx) | hx := hx
  · exact .inl (.inl (hflag .a hx))
  · exact .inl (.inr (hflag .b hx))
  · exact .inr (ho ▸ hx)

/-- No response ends in RELEASED without a reason, or stays there once its reason is gone. -/
theorem Act.Opens.rests {a : Act} {u : Work} (hu : a.Opens x u) (hg : Work.Goes c u (a.run c ⟨x, []⟩))
    (hx : x.state = .released → x.freed = true) (hy : (a.run c ⟨x, []⟩).bay.state = .released) :
    (a.run c ⟨x, []⟩).bay.freed = true := by
  by_cases hs : x.state = .released
  · cases a with
    | writeDemand p level =>
      dsimp only [Act.run] at hy ⊢
      by_cases hp : x.present = true
      · have hz := (Bay.keeps_of_sansDemands (x.sansDemands_written p level c)).1
        rw [Work.writeDemand_present p level c hp, Work.demandWritten_released _ (hz.trans hs)] at hy ⊢
        exact Work.releasedTest_freed hy
      · rw [Work.writeDemand_absent p level c (by simpa using hp)]
        exact hx hs
    | restartFlag p =>
      dsimp only [Act.run, Work.restartFlag] at hy ⊢
      rw [if_pos (by simpa using hs)] at hy ⊢
      exact Work.releasedTest_freed hy
    | ejector =>
      dsimp only [Act.run, Work.ejectorSettled] at hy ⊢
      split at hy
      next he => rw [if_pos he]; exact hx hs
      next he =>
        rw [if_neg he]
        split at hy
        next ho =>
          rw [if_pos ho]
          simp [Work.ejectorOpened, hs, Bay.freed, ho]
        next ho =>
          rw [if_neg ho]
          rw [Work.ejectorClosed_released (by simpa using hs)] at hy ⊢
          exact Work.releasedTest_freed hy
    | _ => exact hg.rests (fun _ => hu.freed (by simp) (by simp) (by simp) (hx hs)) hy
  · exact hg.rests (fun h => absurd (hu.state.symm.trans h) hs) hy

/-- A removal leaves no flag and enters EMPTY (R16, R156). -/
theorem Work.toEmpty_responds (a : Act) (hw : Work.Wends x (Work.toEmpty c ⟨{ x with present := false, prsTimer := none }, []⟩)) :
    Bay.Responds (some a) x (Work.toEmpty c ⟨{ x with present := false, prsTimer := none }, []⟩).bay [.entered .empty] := by
  have hflag : ∀ p, (Work.toEmpty c ⟨{ x with present := false, prsTimer := none }, []⟩).bay.flag p = false := fun p => by
    cases p <;> simp [Work.toEmpty, Bay.flag]
  refine ⟨hw.went (by simp [Work.toEmpty]), ⟨_, .entries (by simp [Work.toEmpty]), by simp [Fact.entered?]⟩, fun _ h => ?_,
    fun _ => ?_, fun p h => ?_, fun p h => ?_, fun p _ h => ?_⟩
  · simp [Work.toEmpty] at h
  · rw [Bay.flagsFollowDemands_iff]
    intro p h
    rw [hflag p] at h; cases h
  · rw [hflag p] at h; cases h
  · rw [hflag p] at h; cases h
  · exact absurd (h .empty (by simp)) (by simp)

/-- Every response is one. -/
theorem Act.run_responds (a : Act) (c : Ctx) (hx : x.stateAllowed c.motion = true)
    (hcleared : a = .faultCleared → x.state = .faulted) (hgranted : ∀ sn, a = .granted sn → x.state = .queued) :
    Bay.Responds (some a) x (a.run c ⟨x, []⟩).bay (a.run c ⟨x, []⟩).facts := by
  have hw := a.run_wends c hx hcleared hgranted
  by_cases hr : a.removes x
  · rw [Act.run_removes hr] at hw ⊢
    exact Work.toEmpty_responds a hw
  by_cases hgrant : ∃ sn, a = .granted sn
  · obtain ⟨sn, rfl⟩ := hgrant
    have hflag : ∀ p, ((Act.granted sn).run c ⟨x, []⟩).bay.flag p = x.flag p := fun p => by
      cases p <;> simp [Act.run, Work.granted, Bay.flag, hgranted sn rfl]
    refine ⟨hw.went (by simp [Act.run]), ⟨_, .entries (by simp [Act.run, Work.granted]), fun f hf hnone => ?_⟩,
      fun _ h => ?_, fun h => ?_, fun p h => .inl (hflag p ▸ h), fun p _ h => ?_, fun p h _ => .inl (by rw [hflag p, h])⟩
    · have hfacts : ((Act.granted sn).run c ⟨x, []⟩).facts = [.entered .spinningUp] := by
        simp [Act.run, Work.granted, hgranted sn rfl]
      rw [hfacts, List.mem_singleton] at hf
      subst hf
      cases hnone
    · simp [Act.run] at h
    · rw [Bay.flagsFollowDemands_iff] at h ⊢
      intro p hp
      rw [hflag p] at hp
      simpa [Act.run] using h p hp
    · rw [hgranted sn rfl] at h; cases h
  · obtain ⟨u, hu, hg⟩ := a.opens c x hr (not_exists.mp hgrant)
    exact hu.responds hg hw (hu.rests hg)

end

end Sys2Proof.Machine
end

section
/-!
The requests of a bay in the middle of an event: those that the facts so far end, and those that stand (R11, R163).
-/

namespace Sys2Proof.Machine

/-! ### What a request asks of its bay -/

/-- What a request of a port asks of a bay that has not ended it (R163, R179, R180). -/
def Bay.bears (p : Port) (x : Bay) : RequestKind → Bool
  | .release _ => x.flag p && x.state ∉ [.empty, .faulted, .released]
  | .wait _ level =>
    x.state ∉ waitStates level && (level = .stop || x.state ∉ [.faulted, .empty] && !x.ejectorOpen)
  | .write | .reload => true

/-- How a fact of its bay ends a request. -/
def kindEnding (p : Port) (k : RequestKind) (f : Fact) : Option Ending :=
  match k with
  | .wait _ level => waitEnding level f
  | .release _ => releaseEnding p f
  | .write | .reload => none

theorem State.requestStands_eq (s : State) (p : Port) {r : Request} {b : BayNo} (h : r.kind.bay? = some b) :
    s.requestStands p r = (s.bay b).bears p r.kind := by
  obtain ⟨tag, kind, accepted, due⟩ := r
  cases kind <;> cases h <;> rfl

theorem State.requestStands_store (s : State) (p : Port) {r : Request} (h : r.kind.bay? = none) :
    s.requestStands p r = true := by
  obtain ⟨tag, kind, accepted, due⟩ := r
  cases kind with
  | wait => cases h
  | release => cases h
  | write => rfl
  | reload => rfl

theorem factEnding_eq (p : Port) {r : Request} {b : BayNo} (h : r.kind.bay? = some b) (f : Fact) :
    factEnding p r (b, f) = kindEnding p r.kind f := by
  obtain ⟨tag, kind, accepted, due⟩ := r
  cases kind <;> cases h <;> simp [factEnding, kindEnding]

theorem factEnding_of_other (p : Port) {r : Request} {b : BayNo} (h : r.kind.bay? ≠ some b) (f : Fact) :
    factEnding p r (b, f) = none := by
  obtain ⟨tag, kind, accepted, due⟩ := r
  cases kind <;> simp_all [factEnding, RequestKind.bay?, eq_comm]

/-- The facts of one bay end a request for it one by one, and no other. -/
theorem eventEnding_bayFacts (p : Port) (b : BayNo) (fs : List Fact) (r : Request) :
    eventEnding p (fs.map fun f => (b, f)) r =
      if r.kind.bay? = some b then fs.findSome? (kindEnding p r.kind) else none := by
  rw [eventEnding_map]
  split
  next h => exact congrArg (fs.findSome? ·) (funext fun f => factEnding_eq p h f)
  next h =>
    rw [List.findSome?_eq_none_iff]
    exact fun f _ => factEnding_of_other p h f

/-! ### A response and the requests for its bay -/

theorem getLastD_mem_cons {α : Type} (a : α) (l : List α) : l.getLastD a ∈ a :: l := by
  rw [← getLast_cons_eq_getLastD]
  exact List.getLast_mem _

theorem Bay.Went.state_mem {x y : Bay} {l : List BayState} (h : x.Went y l) : y.state ∈ x.state :: l := by
  obtain ⟨-, hy, -⟩ | ⟨-, hy, -, -, rfl⟩ := h
  · rw [hy]
    exact getLastD_mem_cons _ _
  · rw [hy]
    simp

/-- A way ends the RELEASE BAYs of a bay COMPLETE exactly where it ends in RELEASED (R163). -/
theorem complete_iff_of_ways (p : Port) : ∀ st : BayState, st ∉ [.empty, .faulted, .released] → ∀ l ∈ st.ways,
    ∀ e ∈ l.findSome? (fun st => releaseEnding p (.entered st)), e.termination = .complete ↔ l.getLastD st = .released := by
  intro st
  cases p <;> cases st <;> decide

theorem waitEnding_entered_eq_none (level : Demand) (st : BayState) :
    waitEnding level (.entered st) = none ↔ st ∉ waitStates level ∧ (level = .stop ∨ st ∉ [.faulted, .empty]) := by
  cases level <;> cases st <;> decide

theorem releaseEnding_entered_eq_none (p : Port) (st : BayState) :
    releaseEnding p (.entered st) = none ↔ st ∉ [.empty, .faulted, .released] := by
  cases p <;> cases st <;> decide

section
variable {a : Option Act} {x y : Bay} {fs : List Fact} (h : x.Responds a y fs) (p : Port)
include h

theorem Bay.Responds.state_mem : y.state = x.state ∨ .entered y.state ∈ fs := by
  have hm := h.went.state_mem
  rw [List.mem_cons, mem_entries] at hm
  exact hm

/-- A response leaves standing what stood before it and what its facts do not end. -/
theorem Bay.Responds.bears {k : RequestKind} (hx : x.bears p k = true) (hfs : fs.findSome? (kindEnding p k) = none)
    (ha : ∀ b, k = .release b → a ≠ some (.restartFlag p)) : y.bears p k = true := by
  rw [List.findSome?_eq_none_iff] at hfs
  cases k with
  | wait b level =>
    have hstate : y.state ∉ waitStates level ∧ (level = .stop ∨ y.state ∉ [.faulted, .empty]) := by
      obtain hs | hs := h.state_mem
      · rw [hs]
        simp only [Bay.bears, Bool.and_eq_true, Bool.or_eq_true, decide_eq_true_eq] at hx
        exact ⟨hx.1, hx.2.imp_right And.left⟩
      · exact (waitEnding_entered_eq_none level _).mp (hfs _ hs)
    have hejector : level = .stop ∨ y.ejectorOpen = false := by
      simp only [Bay.bears, Bool.and_eq_true, Bool.or_eq_true, decide_eq_true_eq, Bool.not_eq_true'] at hx
      obtain ⟨rest, htells, -⟩ := h.tells
      cases htells with
      | entries ho => exact hx.2.imp_right fun h => ho.trans h.2
      | demand _ _ _ ho => exact hx.2.imp_right fun h => ho.trans h.2
      | ejector =>
        have hnone := hfs _ (List.mem_cons_self ..)
        revert hnone
        cases y.ejectorOpen
        · exact fun _ => .inr rfl
        · cases level <;> simp [kindEnding, waitEnding]
    simp only [Bay.bears, Bool.and_eq_true, Bool.or_eq_true, decide_eq_true_eq, Bool.not_eq_true']
    tauto
  | release b =>
    simp only [Bay.bears, Bool.and_eq_true, decide_eq_true_eq] at hx ⊢
    have hall : ∀ st ∈ x.state :: entries fs, st ∉ [.empty, .faulted, .released] := fun st hst => by
      rw [List.mem_cons, mem_entries] at hst
      obtain rfl | hst := hst
      · exact hx.2
      · exact (releaseEnding_entered_eq_none p st).mp (hfs _ hst)
    refine ⟨?_, hall _ h.went.state_mem⟩
    obtain hf | hf | hf := h.keeps p hx.1 hall
    · exact hf
    · exact absurd hf (ha b rfl)
    · have hends := hfs _ hf
      simp [kindEnding, releaseEnding] at hends
  | write => rfl
  | reload => rfl

/-- A response ends a RELEASE BAY that stood COMPLETE exactly where it leads to RELEASED. -/
theorem Bay.Responds.complete_iff {m : Motion} (hy : y.stateAllowed m = true) {b : BayNo} {e : Ending}
    (hx : x.state ∉ [.empty, .faulted, .released]) (he : fs.findSome? (kindEnding p (.release b)) = some e) :
    e.termination = .complete ↔ y.state = .released := by
  have hgo : ∀ rest : List Fact, (∀ f ∈ rest, f.entered? = none → f = .leftEmpty) → entries rest = entries fs →
      rest.findSome? (kindEnding p (.release b)) = some e → (e.termination = .complete ↔ y.state = .released) := by
    intro rest hrest hentries hsome
    rw [findSome_facts _ _ fun f hf hnone => by rw [hrest f hf hnone]; rfl, hentries] at hsome
    obtain ⟨hl, hstate, -⟩ | ⟨-, -, -, -, hl⟩ := h.went
    · rw [hstate]
      exact complete_iff_of_ways p _ hx _ hl e hsome
    · rw [hl] at hsome
      cases p <;> cases hsome
  obtain ⟨rest, htells, hrest⟩ := h.tells
  cases htells with
  | entries => exact hgo _ hrest rfl he
  | ejector => exact hgo rest hrest rfl he
  | demand q level _ _ hq =>
    by_cases hqp : q = p
    · have hends : e = ⟨.aborted, .demandRaised, none⟩ := by
        simp [kindEnding, releaseEnding, hqp] at he
        exact he.symm
      have hnot : y.state ≠ .released := fun hs =>
        hq ((Bay.merged_eq_stop_iff_demand y).mp (Bay.merged_stop_of_allowed hy (.inr hs)) q)
      simp [hends, hnot]
    · refine hgo rest hrest rfl ?_
      simpa [kindEnding, releaseEnding, hqp] using he

/-- A response that leads to RELEASED, or stays there, leaves the release condition holding (R13, R159, R161). -/
theorem Bay.Responds.releaseCondition {m : Motion} (hy : y.stateAllowed m = true)
    (hx : x.state = .released → x.releaseCondition = true) (hs : y.state = .released) : y.releaseCondition = true := by
  have hfreed : x.state = .released → x.freed = true := fun hs => by
    have hc := hx hs
    simp only [Bay.releaseCondition, Bool.and_eq_true] at hc
    exact hc.2
  have hm := (Bay.merged_eq_stop_iff y).mp (Bay.merged_stop_of_allowed hy (.inr hs))
  simp only [Bay.releaseCondition, Bool.and_eq_true, decide_eq_true_eq]
  exact ⟨hm, h.rests hfreed hs⟩

end

end Sys2Proof.Machine
end

section
/-!
The end of an event: the requests that its facts end, and the flags that they clear (R11, R163, R178).
-/

namespace Sys2Proof.Machine

/-- The outstanding requests of each port. -/
def State.requests (s : State) (p : Port) : List Request := (s.port p).outstanding

/-- A bay in the middle of an event, `ends` the requests that it has ended but that are still to be taken out: those
that it has not ended stand, a RELEASE BAY has ended COMPLETE exactly where the bay is RELEASED, and flags and RELEASED
have their reasons (R11 to R13, R159, R163). -/
structure Bay.Closes (os : Port → List Request) (ends : Port → Request → Option Ending) (b : BayNo) (y : Bay) : Prop where
  bears : ∀ p, ∀ r ∈ os p, r.kind.bay? = some b → ends p r = none → y.bears p r.kind = true
  complete : ∀ p, ∀ r ∈ os p, r.kind = .release b → ∀ e, ends p r = some e →
    (e.termination = .complete ↔ y.state = .released)
  rests : y.state = .released → y.releaseCondition = true
  follows : y.flagsFollowDemands = true
  flagged : ∀ p, y.flag p = true → y.state = .released ∨ ∃ r ∈ os p, r.kind = .release b

/-- No request ends. -/
def endsNone : Port → Request → Option Ending := fun _ _ => none

theorem State.releasesHold_iff (s : State) :
    s.releasesHold ↔ ∀ b, (s.bay b).Closes s.requests endsNone b := by
  have hport : ∀ p : Port, p ∈ [Port.a, .b] := fun p => by cases p <;> simp
  constructor
  · rintro ⟨hstands, hrests, hfollows, hflagged⟩ b
    refine ⟨fun p r hr hb _ => ?_, (fun _ _ _ _ _ he => by cases he), hrests b, hfollows b, fun p => hflagged p (hport p) b⟩
    rw [← s.requestStands_eq p hb]
    exact hstands p (hport p) r hr
  · refine fun h => ⟨fun p _ r hr => ?_, fun b => (h b).rests, fun b => (h b).follows, fun p _ b => (h b).flagged p⟩
    cases hb : r.kind.bay? with
    | none => exact s.requestStands_store p hb
    | some b => exact (s.requestStands_eq p hb).trans ((h b).bears p r hr hb rfl)

theorem Bay.not_mem_of_bears_release {p : Port} {x : Bay} {b : BayNo} (h : x.bears p (.release b) = true) :
    x.state ∉ [.empty, .faulted, .released] := by
  simp only [Bay.bears, Bool.and_eq_true, decide_eq_true_eq] at h
  exact h.2

/-- A response within an event that has ended requests already. -/
theorem Bay.Closes.respond {os : Port → List Request} {ends : Port → Request → Option Ending} {b : BayNo} {m : Motion}
    {x y : Bay} {a : Option Act} {fs : List Fact} (h : x.Closes os ends b) (hr : x.Responds a y fs)
    (hy : y.stateAllowed m = true)
    (hended : ∀ p, ∀ r ∈ os p, ends p r ≠ none → (y.state = .released ↔ x.state = .released))
    (hcleared : ∀ p, a = some (.restartFlag p) → os p = [])
    (hasked : ∀ p, a = some (.askRelease p) → ∃ r ∈ os p, r.kind = .release b) :
    y.Closes os (fun p r => (ends p r).or (fs.findSome? (kindEnding p r.kind))) b where
  bears p r hmem hb hnone := by
    obtain ⟨hnone, hfs⟩ := Option.or_eq_none_iff.mp hnone
    refine hr.bears p (h.bears p r hmem hb hnone) hfs fun c _ ha => ?_
    rw [hcleared p ha] at hmem
    exact List.not_mem_nil hmem
  complete p r hmem hk e he := by
    cases hsome : ends p r with
    | none =>
      rw [hsome, Option.none_or, hk] at he
      have hx := h.bears p r hmem (by rw [hk]; rfl) hsome
      rw [hk] at hx
      exact hr.complete_iff p hy (Bay.not_mem_of_bears_release hx) he
    | some e' =>
      rw [hsome, Option.some_or, Option.some.injEq] at he
      rw [hended p r hmem (by simp [hsome]), ← he]
      exact h.complete p r hmem hk e' hsome
  rests := hr.releaseCondition hy h.rests
  follows := hr.follows h.follows
  flagged p hp := by
    obtain hx | ha := hr.set p hp
    · exact (h.flagged p hx).imp_left (hr.left p hp)
    · exact .inr (hasked p ha)

theorem Bay.bears_congr {x y : Bay} {p : Port} {k : RequestKind} (hs : y.state = x.state)
    (ho : y.ejectorOpen = x.ejectorOpen) (hf : ∀ b, k = .release b → y.flag p = x.flag p) : y.bears p k = x.bears p k := by
  cases k with
  | release b => simp only [Bay.bears, hs, hf b rfl]
  | wait b level => simp only [Bay.bears, hs, ho]
  | write => rfl
  | reload => rfl

/-- Ending requests of one port takes them out and clears their flags; those that are still to be ended are left. -/
theorem State.endRequests_closes (s : State) (p : Port) (f g : Request → Option Ending)
    {ends ends' : Port → Request → Option Ending} {b : BayNo} (h : (s.bay b).Closes s.requests ends b)
    (hown : ∀ r ∈ s.requests p, ends p r = (f r).or (g r)) (hown' : ends' p = g)
    (hpeer : ends' p.peer = ends p.peer) :
    ((s.endRequests p f).bay b).Closes (s.endRequests p f).requests ends' b := by
  classical
  have hrequests : (s.endRequests p f).requests p = (s.requests p).filter fun r => (f r).isNone :=
    congrArg PortUnit.outstanding (s.endRequests_port p f)
  have hother : (s.endRequests p f).requests p.peer = s.requests p.peer :=
    congrArg PortUnit.outstanding (s.endRequests_peer p f)
  have hz := s.endRequests_sansFlags p f b
  have hstate := Bay.state_of_sansFlags hz
  have hk := Bay.KeepsInputs.of_sansFlags hz
  have hcases : ∀ q, q = p ∨ q = p.peer := fun q => by cases p <;> cases q <;> simp [Port.peer]
  have hflag := s.endRequests_flag p f b
  have hflag' := s.endRequests_flag_peer p f b
  have hleft : ∀ r, r ∈ (s.endRequests p f).requests p ↔ r ∈ s.requests p ∧ f r = none := fun r => by
    rw [hrequests, List.mem_filter, Option.isNone_iff_eq_none]
  have hends : ∀ q r, r ∈ (s.endRequests p f).requests q → r ∈ s.requests q ∧ ends' q r = ends q r := fun q r hr => by
    obtain rfl | rfl := hcases q
    · obtain ⟨hr, hf⟩ := (hleft r).mp hr
      exact ⟨hr, by rw [hown', hown r hr, hf, Option.none_or]⟩
    · exact ⟨hother ▸ hr, by rw [hpeer]⟩
  have hfalls : ∀ q, ((s.endRequests p f).bay b).flag q = true → (s.bay b).flag q = true := fun q hq => by
    obtain rfl | rfl := hcases q
    · rw [hflag] at hq
      split at hq
      · cases hq
      · exact hq
    · exact hflag' ▸ hq
  have hkeeps : ((s.bay b).state = .released ∨ ∃ r ∈ (s.endRequests p f).requests p, r.kind = .release b) →
      ((s.endRequests p f).bay b).flag p = (s.bay b).flag p := fun hreason => by
    rw [hflag, if_neg]
    rintro ⟨⟨r, hr, hkind, e, he, hterm⟩, hnone⟩
    obtain hrel | ⟨q, hq, hqk⟩ := hreason
    · exact hterm ((h.complete p r hr hkind e (by rw [hown r hr, he]; rfl)).mpr hrel)
    · obtain ⟨hq, hqf⟩ := (hleft q).mp hq
      exact hnone q hq hqf hqk
  refine ⟨fun q r hr hb hnone => ?_, fun q r hr hkind e he => ?_, fun hs => ?_, ?_, fun q hq => ?_⟩
  · obtain ⟨hr', heq⟩ := hends q r hr
    rw [Bay.bears_congr hstate hk.ejectorOpen fun c hc => ?_]
    · exact h.bears q r hr' hb (heq ▸ hnone)
    · have hcb : c = b := by
        rw [hc] at hb
        exact Option.some.inj hb
      obtain rfl | rfl := hcases q
      · exact hkeeps (.inr ⟨r, hr, hcb ▸ hc⟩)
      · exact hflag'
  · obtain ⟨hr', heq⟩ := hends q r hr
    rw [hstate]
    exact h.complete q r hr' hkind e (heq ▸ he)
  · rw [hstate] at hs
    have hown := hkeeps (.inl hs)
    have hcond := h.rests hs
    rw [Bay.releaseCondition_iff] at hcond ⊢
    rw [hk.merged, hk.ejectorOpen]
    refine ⟨hcond.1, ?_⟩
    cases p
    · rw [show Bay.flagA _ = _ from hown, show Bay.flagB _ = _ from hflag']; exact hcond.2
    · rw [show Bay.flagB _ = _ from hown, show Bay.flagA _ = _ from hflag']; exact hcond.2
  · have hf := h.follows
    rw [Bay.flagsFollowDemands_iff] at hf ⊢
    exact fun q hq => (hk.demand q).trans (hf q (hfalls q hq))
  · rw [hstate]
    obtain hrel | ⟨r, hr, hkind⟩ := h.flagged q (hfalls q hq)
    · exact .inl hrel
    obtain rfl | rfl := hcases q
    · by_contra hno
      rw [not_or] at hno
      obtain ⟨hrel, hno⟩ := hno
      rw [hflag, if_pos] at hq
      · cases hq
      refine ⟨⟨r, hr, hkind, ?_⟩, fun q' hq' hf hk' => hno ⟨q', (hleft q').mpr ⟨hq', hf⟩, hk'⟩⟩
      cases he : f r with
      | none => exact absurd ⟨r, (hleft r).mpr ⟨hr, he⟩, hkind⟩ hno
      | some e => exact ⟨e, rfl, fun hc => hrel ((h.complete _ r hr hkind e (by rw [hown r hr, he]; rfl)).mp hc)⟩
    · exact .inr ⟨r, hother ▸ hr, hkind⟩

/-- Finishing an event takes out the requests that its facts end, and leaves those that `ends` is to end. -/
theorem Event.finish_closes (e : Event) (ends : Port → Request → Option Ending) {b : BayNo}
    (h : (e.st.bay b).Closes e.st.requests (fun p r => (eventEnding p e.facts r).or (ends p r)) b) :
    (e.finish.bay b).Closes e.finish.requests ends b := by
  have ha := e.st.endRequests_closes .a (eventEnding .a e.facts) (ends .a)
    (ends' := fun p r => if p = .a then ends p r else (eventEnding p e.facts r).or (ends p r)) h (by simp) (by simp)
    (by simp [Port.peer])
  exact State.endRequests_closes _ .b (eventEnding .b e.facts) (ends .b) ha (by simp) (by rfl)
    (by funext r; simp [Port.peer])

/-- An event that closes every bay leaves the releases as they should be. -/
theorem Event.finish_releasesHold (e : Event)
    (h : ∀ b, (e.st.bay b).Closes e.st.requests (fun p r => (eventEnding p e.facts r).or (endsNone p r)) b) :
    e.finish.releasesHold :=
  (State.releasesHold_iff _).mpr fun b => e.finish_closes endsNone (h b)

end Sys2Proof.Machine
end

section
/-!
Bays that act in an event, and motion changes, close with the requests of their bays (R11, R163, R178 to R180).
-/

namespace Sys2Proof.Machine

theorem Bay.Closes.congr {os os' : Port → List Request} {ends ends' : Port → Request → Option Ending} {b : BayNo} {y : Bay}
    (h : y.Closes os ends b) (hos : os' = os)
    (hends : ∀ p, ∀ r ∈ os p, r.kind.bay? = some b → ends' p r = ends p r) : y.Closes os' ends' b := by
  subst hos
  refine ⟨fun p r hr hb hnone => h.bears p r hr hb (hends p r hr hb ▸ hnone), fun p r hr hk e he => ?_, h.rests, h.follows,
    h.flagged⟩
  exact h.complete p r hr hk e (hends p r hr (by rw [hk]; rfl) ▸ he)

/-! ### Bays that act leave the ports' slots, and each ends its own requests -/

section
variable (f : Ctx → Work → Work)

theorem Event.onBays_slots (bs : List BayNo) (e : Event) (p : Port) :
    ((e.onBays bs f).st.port p).outstanding = (e.st.port p).outstanding ∧
      ((e.onBays bs f).st.port p).completions = (e.st.port p).completions := by
  induction bs generalizing e with
  | nil => exact ⟨rfl, rfl⟩
  | cons b bs ih =>
    obtain ⟨hout, hdone⟩ := ih (e.onBay b f)
    have hb := PortUnit.onFacts_slots b (f e.st.ctx ⟨e.st.bay b, []⟩).facts (e.st.port p)
    rw [← Event.onBay_port] at hb
    exact ⟨hout.trans (congrArg (·.1) hb), hdone.trans (congrArg (·.2) hb)⟩

theorem Event.onBays_requests (bs : List BayNo) (e : Event) : (e.onBays bs f).st.requests = e.st.requests :=
  funext fun p => (e.onBays_slots f bs p).1

theorem eventEnding_append (p : Port) (fs gs : List (BayNo × Fact)) (r : Request) :
    eventEnding p (fs ++ gs) r = (eventEnding p fs r).or (eventEnding p gs r) :=
  List.findSome?_append

/-- A request for a bay ends by what the bay hands on. -/
theorem Event.onBays_ending (bs : List BayNo) (e : Event) (hn : bs.Nodup) (p : Port) {r : Request} {b : BayNo}
    (hb : r.kind.bay? = some b) :
    eventEnding p (e.onBays bs f).facts r =
      (eventEnding p e.facts r).or (if b ∈ bs then (e.bayFacts f b).findSome? (kindEnding p r.kind) else none) := by
  have hflat : ∀ bs : List BayNo, eventEnding p (bs.flatMap fun c => (e.bayFacts f c).map fun x => (c, x)) r =
      if b ∈ bs then (e.bayFacts f b).findSome? (kindEnding p r.kind) else none := by
    intro bs
    induction bs with
    | nil => rfl
    | cons c bs ih =>
      rw [List.flatMap_cons, eventEnding_append, ih, eventEnding_bayFacts, hb]
      by_cases hc : b = c
      · subst hc
        simp only [if_true, List.mem_cons_self]
        split <;> cases (e.bayFacts f b).findSome? (kindEnding p r.kind) <;> rfl
      · rw [if_neg (by simpa using hc), Option.none_or]
        exact if_congr (by simp [hc]) rfl rfl
  rw [Event.onBays_facts f bs e hn, eventEnding_append, hflat]

end

/-- A bay of an event, whether it acts in it or not. -/
theorem Event.onBays_closes (bs : List BayNo) (f : Ctx → Work → Work) (e : Event) (hn : bs.Nodup)
    (ends : Port → Request → Option Ending) {b : BayNo}
    (hin : b ∈ bs → (f e.st.ctx ⟨e.st.bay b, []⟩).bay.Closes e.st.requests (fun p r =>
      ((eventEnding p e.facts r).or ((e.bayFacts f b).findSome? (kindEnding p r.kind))).or (ends p r)) b)
    (hout : b ∉ bs → (e.st.bay b).Closes e.st.requests (fun p r => (eventEnding p e.facts r).or (ends p r)) b) :
    ((e.onBays bs f).st.bay b).Closes (e.onBays bs f).st.requests
      (fun p r => (eventEnding p (e.onBays bs f).facts r).or (ends p r)) b := by
  rw [Event.onBays_bay _ _ _ hn]
  by_cases hb : b ∈ bs
  · rw [if_pos hb]
    refine (hin hb).congr (e.onBays_requests f bs) fun p r _ hk => ?_
    rw [e.onBays_ending f bs hn p hk, if_pos hb]
  · rw [if_neg hb]
    refine (hout hb).congr (e.onBays_requests f bs) fun p r _ hk => ?_
    rw [e.onBays_ending f bs hn p hk, if_neg hb, Option.or_none]

/-- An event whose bays close, under a motion state that allows their states. -/
structure Event.Closes (e : Event) : Prop where
  allowed : ∀ b, (e.st.bay b).stateAllowed e.st.motion.state = true
  closes : ∀ b, (e.st.bay b).Closes e.st.requests (fun p r => (eventEnding p e.facts r).or (endsNone p r)) b

theorem Event.Closes.of_releasesHold {s : State} (hs : s.statesAllowed) (hr : s.releasesHold) : s.event.Closes :=
  ⟨hs.2, fun b => (s.releasesHold_iff.mp hr) b⟩

/-- A motion change neither enters nor leaves RELEASED. -/
theorem Work.motionChanged_released_iff {c : Ctx} {m : Motion} {x : Bay} (hx : x.stateAllowed m = true) :
    (Work.motionChanged c ⟨x, []⟩).bay.state = .released ↔ x.state = .released := by
  have hg : Work.Goes c ⟨x, []⟩ (Work.motionChanged c ⟨x, []⟩) := Work.Goes.stay.motionChanged
  have hstays : x.merged ≠ .stop → (Work.motionChanged c ⟨x, []⟩).bay.state ≠ .released := fun hm h =>
    hm (hg.inputs.merged.symm.trans (Bay.merged_stop_of_allowed (Work.allowed_motionChanged hx) (.inr h)))
  cases hst : x.state with
  | spinningUp => simpa [hst] using hstays (Bay.spinningUp_of_allowed hx hst).1.1
  | spun => simpa [hst] using hstays (Bay.spun_of_allowed hx hst).1.1.1
  | loading =>
    have hm := (Bay.onPlatters_of_allowed hx (.inl hst)).1.1
    simpa [hst] using hstays (by rw [hm]; decide)
  | ready =>
    have hm := (Bay.onPlatters_of_allowed hx (.inr hst)).1.1
    simpa [hst] using hstays (by rw [hm]; decide)
  | unloading =>
    simp only [Work.motionChanged, hst]
    split <;> simp [hst, Work.toRetracting]
  | _ => simp [Work.motionChanged, hst]

theorem Event.Closes.setMotion {e : Event} (h : e.Closes) (m : MotionRecord) : (e.setMotion m).Closes := by
  by_cases hm : m.state = e.st.motion.state
  · rw [Event.setMotion_same hm]
    exact ⟨fun b => hm ▸ h.allowed b, h.closes⟩
  · rw [Event.setMotion_changed hm]
    have hframe : (Event.onBays bayNos Work.motionChanged ⟨e.st.motionHanded m, e.facts⟩).st.motion = m :=
      congrArg (·.2.2.1) (Event.onBays_frame bayNos Work.motionChanged _)
    refine ⟨fun b => ?_, fun b => ?_⟩
    · rw [hframe, Event.onBays_bay _ _ _ (by decide), if_pos (mem_bayNos b)]
      exact Work.allowed_motionChanged (c := ⟨e.st.now, m.state⟩) (h.allowed b)
    · have hrequests : (e.st.motionHanded m).requests = e.st.requests := funext fun p => by cases p <;> rfl
      have hbay := ((h.closes b).congr hrequests fun _ _ _ _ => rfl).respond (Work.motionChanged_responds (h.allowed b))
        (Work.allowed_motionChanged (c := ⟨e.st.now, m.state⟩) (h.allowed b))
        (fun _ _ _ _ => Work.motionChanged_released_iff (h.allowed b)) nofun nofun
      refine Event.onBays_closes bayNos Work.motionChanged ⟨e.st.motionHanded m, e.facts⟩ (by decide) endsNone
        (fun _ => ?_) fun hb => absurd (mem_bayNos b) hb
      refine hbay.congr rfl fun p r _ _ => ?_
      simp only [endsNone, Option.or_none]
      exact congrArg _ rfl

theorem Event.Hears.closes {e u : Event} (h : e.Hears u) (he : e.Closes) : u.Closes := by
  induction h with
  | stay => exact he
  | receiver f _ ih => exact ⟨ih.allowed, ih.closes⟩
  | motion _ _ ih => exact ih.setMotion _

end Sys2Proof.Machine
end

section
/-!
Every event keeps the releases as they should be (R11 to R13, R159, R163, R179, R180).
-/

namespace Sys2Proof.Machine

theorem State.releasesHold_congr {s t : State} (hb : ∀ b, t.bay b = s.bay b)
    (ho : ∀ p, (t.port p).outstanding = (s.port p).outstanding) (h : s.releasesHold) : t.releasesHold := by
  rw [State.releasesHold_iff] at h ⊢
  intro b
  rw [hb b]
  exact (h b).congr (funext ho) fun _ _ _ _ => rfl

theorem State.Alike.releasesHold {s t : State} (h : s.Alike t) (hs : s.releasesHold) : t.releasesHold :=
  State.releasesHold_congr h.bay h.outstanding hs

theorem State.Beside.statesAllowed {s t : State} (h : s.Beside t) (hs : s.statesAllowed) : t.statesAllowed :=
  ⟨State.queueMatches_of_eq hs.1 h.bays h.queue, fun b => by rw [h.bay, h.motion]; exact hs.2 b⟩

/-- What brings a response finds the bay where it should be (R33, R53). -/
theorem Act.Fits.states {a : Act} {u : State} {b : BayNo} (h : a.Fits u b) (hq : u.queueMatches) :
    (a = .faultCleared → (u.bay b).state = .faulted ∧ (u.bay b).fltOn = false) ∧
      ∀ sn, a = .granted sn → (u.bay b).state = .queued ∧ u.motion.state ≠ .transit := by
  refine ⟨?_, ?_⟩
  · rintro rfl
    exact h
  · rintro sn rfl
    refine ⟨(hq.2 b).mp h.1, fun htransit => ?_⟩
    have hgrants : u.motion.state.grants = true := h.2.1
    rw [htransit] at hgrants
    cases hgrants

theorem State.Moves.statesAllowed {i : Instr} {s t : State} (h : s.Moves i t) (hs : s.statesAllowed) : t.statesAllowed := by
  refine ⟨h.queueMatches hs.1, h.bays (P := fun m x => x.stateAllowed m = true) (fun _ _ _ hx ht => ht.stateAllowed hx)
    (fun u b a hu _ hf hx => ?_) (fun _ _ _ hx => Work.allowed_motionChanged hx) hs.2⟩
  obtain ⟨hcleared, hgranted⟩ := hf.states (hu.queueMatches hs.1)
  exact a.run_allowed u.ctx hx hcleared hgranted

theorem State.Listens.releasesHold {s t : State} (h : s.Listens t) (hs : s.statesAllowed) (hr : s.releasesHold) :
    t.releasesHold := by
  induction h with
  | stay => exact hr
  | receiver f _ ih => exact (State.alike_editReceiver f _).releasesHold ih
  | @hears u e hl he ih =>
    have hu : u.statesAllowed := ((State.Moves.start (i := .partReset)).listens hl).statesAllowed hs
    exact e.finish_releasesHold (he.closes (Event.Closes.of_releasesHold hu ih)).closes

/-- Bays that respond, one after the other, in one event. -/
theorem State.releasesHold_onBays {u : State} (hu : u.statesAllowed) (hr : u.releasesHold) (a : Act) (bs : List BayNo)
    (hn : bs.Nodup) (hfit : ∀ b ∈ bs, a.Fits u b) (hcleared : ∀ p, a = .restartFlag p → u.requests p = [])
    (hasked : ∀ p, a ≠ .askRelease p) : (u.event.onBays bs a.run).finish.releasesHold := by
  refine Event.finish_releasesHold _ fun b => ?_
  refine u.event.onBays_closes bs a.run hn endsNone (fun hb => ?_) fun _ => u.releasesHold_iff.mp hr b
  obtain ⟨hfault, hgrant⟩ := (hfit b hb).states hu.1
  have hbay := (u.releasesHold_iff.mp hr b).respond
    (a.run_responds u.ctx (hu.2 b) (fun h => (hfault h).1) fun sn h => (hgrant sn h).1)
    (a.run_allowed u.ctx (hu.2 b) hfault hgrant) (fun _ _ _ h => absurd rfl h)
    (fun p h => hcleared p (Option.some.inj h)) (fun p h => absurd (Option.some.inj h) (hasked p))
  exact hbay.congr rfl fun p r _ _ => Option.or_none

/-- The end of requests of one port, none of them COMPLETE for a RELEASE BAY. -/
theorem State.releasesHold_endRequests {u : State} (hr : u.releasesHold) (p : Port) (f : Request → Option Ending)
    (hf : ∀ r e b, r.kind = .release b → f r = some e → e.termination ≠ .complete) : (u.endRequests p f).releasesHold := by
  rw [State.releasesHold_iff] at hr ⊢
  intro b
  have h := hr b
  refine u.endRequests_closes p f (fun _ => none) (ends := fun q => if q = p then f else fun _ => none) ?_ (by simp) rfl
    (by cases p <;> rfl)
  refine ⟨fun q r hr hb _ => h.bears q r hr hb rfl, fun q r hmem hk e he => ?_, h.rests, h.follows, h.flagged⟩
  split at he
  next hq =>
    have hx := h.bears q r hmem (by rw [hk]; rfl) rfl
    rw [hk] at hx
    simp only [Bay.bears, Bool.and_eq_true, decide_eq_true_eq] at hx
    refine ⟨fun hc => absurd hc (hf r e b hk he), fun hs => absurd hx.2 (by simp [hs])⟩
  next => cases he

end Sys2Proof.Machine
end

section
/-!
The acceptance of a request, PORT RESTART and part reset keep the releases as they should be (R7, R17, R162, R179).
-/

namespace Sys2Proof.Machine

/-! ### A request accepted -/

section
variable {u : State} {p : Port} {tag : Byte} {kind : RequestKind} {due : Option Micros}

/-- A request as it is accepted (R177). -/
def State.acceptedRequest (u : State) (tag : Byte) (kind : RequestKind) (due : Option Micros) : Request :=
  { tag, kind, accepted := millis u.now, due }

theorem State.accept_requests (q : Port) (r : Request) :
    r ∈ (u.accept p tag kind due).requests q ↔ r ∈ u.requests q ∨ q = p ∧ r = u.acceptedRequest tag kind due := by
  cases p <;> cases q <;>
    simp [State.accept, State.requests, State.setPort, State.port, State.acceptedRequest]

theorem State.tag_ne_of_free (h : (u.port p).tagInUse tag = false) {r : Request} (hr : r ∈ u.requests p) : r.tag ≠ tag := by
  simp only [PortUnit.tagInUse, List.any_eq_false, decide_eq_true_eq] at h
  exact h r hr

/-- A WAIT BAY that its acceptance does not end stands (R179, R180). -/
theorem State.bears_of_waitAtAcceptance {v : State} {b : BayNo} {level : Demand} (h : v.waitAtAcceptance b level = none) :
    (v.bay b).bears p (.wait b level) = true := by
  unfold State.waitAtAcceptance at h
  dsimp only at h
  cases level <;> cases hs : (v.bay b).state <;> cases ho : (v.bay b).ejectorOpen <;>
    simp [hs, ho, Demand.metBy, Bay.bears, waitStates] at h ⊢

/-- A request other than RELEASE BAY is accepted, and ends at once or stands. -/
theorem State.releasesHold_accept (hr : u.releasesHold) (htag : (u.port p).tagInUse tag = false)
    (hkind : ∀ b, kind ≠ .release b) (e : Option Ending)
    (hwait : ∀ b level, kind = .wait b level → e = none → (u.accept p tag kind due).waitAtAcceptance b level = none) :
    ((u.accept p tag kind due).endAccepted p tag e).releasesHold := by
  have hbay : ∀ b, (u.accept p tag kind due).bay b = u.bay b := (u.beside_accept p tag kind due).bay
  have hcloses : ∀ b, ((u.accept p tag kind due).bay b).Closes (u.accept p tag kind due).requests
      (fun q r => if q = p ∧ r.tag = tag then e else none) b := fun b => by
    have h := u.releasesHold_iff.mp hr b
    rw [hbay b]
    refine ⟨fun q r hr' hb hnone => ?_, fun q r hr' hk e' he => ?_, h.rests, h.follows, fun q hq => ?_⟩
    · obtain hr' | ⟨rfl, rfl⟩ := (State.accept_requests q r).mp hr'
      · exact h.bears q r hr' hb rfl
      · have he : e = none := by simpa [State.acceptedRequest] using hnone
        cases hk : kind with
        | wait c level =>
          subst hk
          cases hb
          rw [← hbay b]
          exact State.bears_of_waitAtAcceptance (hwait b level rfl he)
        | release c => exact absurd hk (hkind c)
        | write => simp [State.acceptedRequest, hk, RequestKind.bay?] at hb
        | reload => simp [State.acceptedRequest, hk, RequestKind.bay?] at hb
    · obtain hr' | ⟨rfl, rfl⟩ := (State.accept_requests q r).mp hr'
      · split at he
        next hq => exact absurd hq.2 (State.tag_ne_of_free htag (hq.1 ▸ hr'))
        next => cases he
      · exact absurd hk (hkind b)
    · exact (h.flagged q hq).imp_right fun ⟨r, hr', hk⟩ => ⟨r, (State.accept_requests q r).mpr (.inl hr'), hk⟩
  rw [State.releasesHold_iff]
  cases e with
  | none => exact fun b => (hcloses b).congr rfl fun q r _ _ => by simp [endsNone]
  | some x =>
    intro b
    exact State.endRequests_closes _ p _ (fun _ => none) (hcloses b) (by simp) rfl (by funext r; cases p <;> simp [endsNone, Port.peer])

end

/-! ### RELEASE BAY -/

/-- RELEASE BAY leaves a bay in a state that ends it as it is (R162). -/
theorem Work.askRelease_stays (p : Port) (c : Ctx) {x : Bay} (hx : x.stateAllowed c.motion = true)
    (hs : x.state ∈ [.empty, .faulted, .released]) :
    (Work.askRelease p c ⟨x, []⟩).facts = [] ∧ (Work.askRelease p c ⟨x, []⟩).bay.state = x.state := by
  simp only [List.mem_cons, List.not_mem_nil, or_false] at hs
  obtain ⟨hstate, -⟩ := Bay.keeps_of_sansDemands (x.sansDemands_asked p c)
  obtain hs | hs | hs := hs
  · rw [Work.askRelease_empty p hs]
    exact ⟨rfl, rfl⟩
  · rw [Work.askRelease_eq p (by simp [hs]), show Work.demandWritten c x.merged ⟨x.asked p c, []⟩ = ⟨x.asked p c, []⟩ by
      simp [Work.demandWritten, hstate, hs]]
    exact ⟨rfl, hstate⟩
  · have hm := (Bay.merged_eq_stop_iff_demand x).mp (Bay.merged_stop_of_allowed hx (.inr hs)) p.peer
    rw [Work.askRelease_eq p (by simp [hs]), Work.demandWritten_released _ (hstate.trans hs), Work.releasedTest,
      if_pos ((Bay.asked_releaseCondition_iff p).mpr hm)]
    exact ⟨rfl, hstate⟩

/-- A bay that a RELEASE BAY left waiting has the port's flag (R7, R162). -/
theorem Work.askRelease_waits (p : Port) (c : Ctx) {x : Bay} (hx : x.stateAllowed c.motion = true)
    (hy : (Work.askRelease p c ⟨x, []⟩).bay.state ∉ [.empty, .faulted, .released]) :
    (Work.askRelease p c ⟨x, []⟩).bay.flag p = true := by
  have hs : x.state ∉ [.empty, .faulted, .released] := fun hs => by
    rw [(Work.askRelease_stays p c hx hs).2] at hy
    exact hy hs
  have hwent := (Act.run_responds (.askRelease p) c hx nofun nofun).went
  have hne : x.state ≠ .empty := fun h => hs (by simp [h])
  dsimp only [Act.run] at hwent
  rw [Work.askRelease_eq p hne] at hwent ⊢
  obtain ⟨hstate, -⟩ := Bay.keeps_of_sansDemands (x.sansDemands_asked p c)
  have ht := (Work.Goes.stay (c := c) (w := ⟨x.asked p c, []⟩)).demandWritten x.merged |>.tracks (.start c _ [] rfl)
  have hout : .released ∉ (x.state :: entries (Work.demandWritten c x.merged ⟨x.asked p c, []⟩).facts).dropLast := by
    obtain ⟨hl, -, -⟩ | ⟨hst, -, -, -, hl⟩ := hwent
    · exact BayState.not_mem_dropLast_of_ways _ _ hl fun h => absurd (by simp [h]) hs
    · rw [hl, hst]
      decide
  rw [ht.flag, hstate, show (x.asked p c).flag p = true by simp [Bay.asked], decide_eq_true hout]
  rfl

section
variable {u : State} {p : Port} {tag : Byte} {due : Option Micros} {b : BayNo} (timeout : Half)

/-- How an accepted RELEASE BAY that its bay's event left outstanding ends: as a bay that has come to RELEASED, or that
cannot come there, ends it, or with its timeout (R162). -/
theorem State.releaseEnds_iff (v : State) (e : Ending)
    (he : v.orExpireAtOnce b timeout (v.releaseAtAcceptance b) = some e) :
    e.termination = .complete ↔ (v.bay b).state = .released := by
  unfold State.orExpireAtOnce State.releaseAtAcceptance at he
  cases hs : (v.bay b).state <;> rw [hs] at he
  case empty | faulted | released => cases he; simp
  all_goals
    dsimp only at he
    split at he
    · cases he; simp
    · cases he

theorem State.not_mem_of_releaseEnds_none {v : State}
    (he : v.orExpireAtOnce b timeout (v.releaseAtAcceptance b) = none) :
    (v.bay b).state ∉ [.empty, .faulted, .released] := by
  unfold State.orExpireAtOnce State.releaseAtAcceptance at he
  cases hs : (v.bay b).state <;> rw [hs] at he <;> first | cases he | simp

/-- The bay of an accepted RELEASE BAY closes with it, `G` the ending that its acceptance brings (R7, R162). -/
theorem State.askRelease_closes (hu : u.statesAllowed) (hr : u.releasesHold) (htag : (u.port p).tagInUse tag = false)
    {v : State} {G : Option Ending} (hG : v.orExpireAtOnce b timeout (v.releaseAtAcceptance b) = G)
    (hv : (v.bay b).state = (Work.askRelease p u.ctx ⟨u.bay b, []⟩).bay.state) :
    (Work.askRelease p u.ctx ⟨u.bay b, []⟩).bay.Closes (u.accept p tag (.release b) due).requests (fun q r =>
      ((Work.askRelease p u.ctx ⟨u.bay b, []⟩).facts.findSome? (kindEnding q r.kind)).or
        (if q = p ∧ r.tag = tag then G else none)) b := by
  have hx := hu.2 b
  have h := u.releasesHold_iff.mp hr b
  have hresp : (u.bay b).Responds (some (.askRelease p)) _ _ := Act.run_responds (.askRelease p) u.ctx hx nofun nofun
  have hy := Act.run_allowed (.askRelease p) u.ctx hx nofun nofun
  have hstays := Work.askRelease_stays p u.ctx hx
  have hwaits := Work.askRelease_waits p u.ctx hx
  dsimp only [Act.run] at hresp hy
  generalize Work.askRelease p u.ctx ⟨u.bay b, []⟩ = w at *
  refine ⟨fun q r hr' hb hnone => ?_, fun q r hr' hk e he => ?_, hresp.releaseCondition hy h.rests,
    hresp.follows h.follows, fun q hq => ?_⟩
  · obtain ⟨hfs, hnone⟩ := Option.or_eq_none_iff.mp hnone
    obtain hr' | ⟨rfl, rfl⟩ := (State.accept_requests q r).mp hr'
    · exact hresp.bears q (h.bears q r hr' hb rfl) hfs (by simp)
    · rw [if_pos ⟨rfl, rfl⟩] at hnone
      have hne := State.not_mem_of_releaseEnds_none timeout (hG.trans hnone)
      rw [hv] at hne
      simp only [State.acceptedRequest, Bay.bears, hwaits hne, Bool.true_and, decide_eq_true_eq]
      exact hne
  · obtain hr' | ⟨rfl, rfl⟩ := (State.accept_requests q r).mp hr'
    · rw [if_neg fun hq => State.tag_ne_of_free htag (hq.1 ▸ hr') hq.2, Option.or_none, hk] at he
      have hbears := h.bears q r hr' (by rw [hk]; rfl) rfl
      rw [hk] at hbears
      exact hresp.complete_iff q hy (Bay.not_mem_of_bears_release hbears) he
    · rw [if_pos ⟨rfl, rfl⟩] at he
      by_cases hs : (u.bay b).state ∈ [.empty, .faulted, .released]
      · rw [(hstays hs).1, List.findSome?_nil, Option.none_or] at he
        rw [← hv]
        exact State.releaseEnds_iff timeout v e (hG.trans he)
      · cases hsome : w.facts.findSome? (kindEnding q (.release b)) with
        | none =>
          rw [hk, hsome, Option.none_or] at he
          rw [← hv]
          exact State.releaseEnds_iff timeout v e (hG.trans he)
        | some e' =>
          rw [hk, hsome, Option.some_or, Option.some.injEq] at he
          exact he ▸ hresp.complete_iff q hy hs hsome
  · obtain hf | hask := hresp.set q hq
    · refine (h.flagged q hf).imp (hresp.left q hq) fun ⟨r, hr', hk⟩ => ⟨r, (State.accept_requests q r).mpr (.inl hr'), hk⟩
    · have hqp : p = q := by simpa using hask
      exact .inr ⟨_, (State.accept_requests q _).mpr (.inr ⟨hqp.symm, rfl⟩), rfl⟩

/-- RELEASE BAY acts at its acceptance, and ends at once or stands. -/
theorem State.releasesHold_release (hu : u.statesAllowed) (hr : u.releasesHold)
    (htag : (u.port p).tagInUse tag = false) :
    let v := (u.accept p tag (.release b) due).bayEvent b (Work.askRelease p)
    (v.endAccepted p tag (v.orExpireAtOnce b timeout (v.releaseAtAcceptance b))).releasesHold := by
  intro v
  generalize hG : v.orExpireAtOnce b timeout (v.releaseAtAcceptance b) = G
  have hbay : ∀ c, (u.accept p tag (.release b) due).bay c = u.bay c := (u.beside_accept p tag (.release b) due).bay
  have hctx : (u.accept p tag (.release b) due).ctx = u.ctx := by simp [State.accept, State.ctx]
  have hvstate : (v.bay b).state = (Work.askRelease p u.ctx ⟨u.bay b, []⟩).bay.state := by
    refine Bay.state_of_sansFlags ((State.bayEvent_sansFlags _ b b _).trans ?_)
    rw [if_pos rfl, hbay b, hctx]
  have hold : ∀ q, ∀ r ∈ u.requests q, (if q = p ∧ r.tag = tag then G else none) = none := fun q r hr' =>
    if_neg fun hq => State.tag_ne_of_free htag (hq.1 ▸ hr') hq.2
  have hcloses : ∀ c, (v.bay c).Closes v.requests (fun q r => if q = p ∧ r.tag = tag then G else none) c := fun c => by
    refine Event.finish_closes (Event.onBays [b] (Work.askRelease p) (u.accept p tag (.release b) due).event) _
      (Event.onBays_closes [b] _ _ (by simp) _ (fun hc => ?_) fun hc => ?_)
    · obtain rfl := List.mem_singleton.mp hc
      have hfacts : Event.bayFacts (Work.askRelease p) (u.accept p tag (.release c) due).event c =
          (Work.askRelease p u.ctx ⟨u.bay c, []⟩).facts := by
        simp only [Event.bayFacts, State.event_st, hctx, hbay]
      rw [State.event_st, hctx, hbay c]
      refine (State.askRelease_closes timeout hu hr htag hG hvstate).congr rfl fun q r _ _ => ?_
      rw [hfacts]
      rfl
    · have h := u.releasesHold_iff.mp hr c
      have hmem : ∀ q, ∀ r ∈ (u.accept p tag (.release b) due).requests q, r.kind.bay? = some c → r ∈ u.requests q := by
        intro q r hr' hk
        refine ((State.accept_requests q r).mp hr').resolve_right fun hnew => hc ?_
        rw [hnew.2] at hk
        exact List.mem_singleton.mpr (Option.some.inj hk).symm
      rw [State.event_st, hbay c]
      refine ⟨fun q r hr' hb _ => h.bears q r (hmem q r hr' hb) hb rfl, fun q r hr' hk e he => ?_, h.rests, h.follows,
        fun q hq => ?_⟩
      · rw [hold q r (hmem q r hr' (by rw [hk]; rfl)), Option.or_none] at he
        cases he
      · exact (h.flagged q hq).imp_right fun ⟨r, hr', hk⟩ => ⟨r, (State.accept_requests q r).mpr (.inl hr'), hk⟩
  rw [State.releasesHold_iff]
  cases G with
  | none => exact fun c => (hcloses c).congr rfl fun q r _ _ => by simp [endsNone]
  | some x =>
    intro c
    exact State.endRequests_closes _ p _ (fun _ => none) (hcloses c) (by simp) rfl
      (by funext r; cases p <;> simp [endsNone, Port.peer])

end

end Sys2Proof.Machine
end

section
/-!
Every event keeps the releases as they should be (R11 to R13, R17, R163).
-/

namespace Sys2Proof.Machine

/-! ### PORT RESTART -/

theorem Work.restartFlag_clears (p : Port) (c : Ctx) (x : Bay) : (Work.restartFlag p c ⟨x, []⟩).bay.flag p = false := by
  unfold Work.restartFlag
  dsimp only
  split
  · exact (Work.Goes.stay (c := c)).releasedTest.flag_of_clear (by simp)
  · simp

/-- PORT RESTART drops the port's requests, and with them its flags (R17, R185). -/
theorem State.releasesHold_restart {u : State} (hu : u.statesAllowed) (hr : u.releasesHold) (p : Port) :
    (((u.setPort p (u.port p).restart).event).onBays bayNos (Work.restartFlag p)).finish.releasesHold := by
  have hctx : (u.setPort p (u.port p).restart).ctx = u.ctx := by simp [State.ctx]
  have hown : (u.setPort p (u.port p).restart).requests p = [] := by simp [State.requests, PortUnit.restart]
  have hpeer : ∀ q, q ≠ p → (u.setPort p (u.port p).restart).requests q = u.requests q := fun q hq => by
    cases p <;> cases q <;> first | exact absurd rfl hq | rfl
  have hmem : ∀ q, ∀ r ∈ (u.setPort p (u.port p).restart).requests q, q ≠ p ∧ r ∈ u.requests q := fun q r hr' => by
    have hq : q ≠ p := fun hq => by
      subst hq
      rw [hown] at hr'
      exact List.not_mem_nil hr'
    exact ⟨hq, hpeer q hq ▸ hr'⟩
  refine Event.finish_releasesHold _ fun b => ?_
  refine Event.onBays_closes bayNos _ _ (by decide) endsNone (fun _ => ?_) fun hb => absurd (mem_bayNos b) hb
  have h := u.releasesHold_iff.mp hr b
  have hresp : (u.bay b).Responds (some (.restartFlag p)) _ _ := Act.run_responds (.restartFlag p) u.ctx (hu.2 b) nofun nofun
  have hy := Act.run_allowed (.restartFlag p) u.ctx (hu.2 b) nofun nofun
  have hclear := Work.restartFlag_clears p u.ctx (u.bay b)
  have hfacts : Event.bayFacts (Work.restartFlag p) (u.setPort p (u.port p).restart).event b =
      (Work.restartFlag p u.ctx ⟨u.bay b, []⟩).facts := by
    simp only [Event.bayFacts, State.event_st, hctx, State.bay_setPort]
  rw [State.event_st, hctx, State.bay_setPort, hfacts]
  dsimp only [Act.run] at hresp hy
  generalize Work.restartFlag p u.ctx ⟨u.bay b, []⟩ = w at *
  refine ⟨fun q r hr' hb hnone => ?_, fun q r hr' hk e he => ?_, hresp.releaseCondition hy h.rests,
    hresp.follows h.follows, fun q hq => ?_⟩
  · obtain ⟨hq, hr'⟩ := hmem q r hr'
    obtain ⟨hnone, -⟩ := Option.or_eq_none_iff.mp hnone
    exact hresp.bears q (h.bears q r hr' hb rfl) (Option.or_eq_none_iff.mp hnone).2 fun _ _ he =>
      hq (by simpa using he.symm)
  · obtain ⟨hq, hr'⟩ := hmem q r hr'
    have hbears := h.bears q r hr' (by rw [hk]; rfl) rfl
    rw [hk] at hbears he
    exact hresp.complete_iff q hy (Bay.not_mem_of_bears_release hbears) ((Option.or_none.symm.trans he :))
  · by_cases hqp : q = p
    · rw [hqp, hclear] at hq
      cases hq
    · rw [hpeer q hqp]
      obtain hf | ha := hresp.set q hq
      · exact (h.flagged q hf).imp_left (hresp.left q hq)
      · cases ha

/-! ### Part reset -/

theorem Bay.afterReset_flag (x : Bay) (p : Port) : x.afterReset.flag p = false := by
  unfold Bay.afterReset
  cases p <;> cases x.prs <;> cases x.flt <;> simp [Bay.reset, Bay.flag]

theorem State.releasesHold_partReset (s : State) : s.partReset.releasesHold := by
  rw [State.releasesHold_iff]
  intro b
  have hnone : ∀ p, s.partReset.requests p = [] := fun p => by simp [State.requests, PortUnit.reset]
  rw [State.bay_partReset]
  refine ⟨fun p r hr => ?_, fun p r hr => ?_, fun hs => ?_, ?_, fun p hp => ?_⟩
  · rw [hnone p] at hr
    exact absurd hr List.not_mem_nil
  · rw [hnone p] at hr
    exact absurd hr List.not_mem_nil
  · have h := (s.bay b).afterReset_state
    rw [hs] at h
    simp at h
  · rw [Bay.flagsFollowDemands_iff]
    intro p hp
    rw [Bay.afterReset_flag] at hp
    cases hp
  · rw [Bay.afterReset_flag] at hp
    cases hp

/-! ### Every event -/

theorem Bay.Touched.closes {c : Ctx} {x y : Bay} {os : Port → List Request} {ends : Port → Request → Option Ending}
    {b : BayNo} (h : x.Touched c y)
    (hf : (y.flagA, y.flagB, y.ejectorOpen, y.phase) = (x.flagA, x.flagB, x.ejectorOpen, x.phase))
    (hx : x.Closes os ends b) : y.Closes os ends b := by
  simp only [Prod.mk.injEq] at hf
  obtain ⟨hA, hB, ho, -⟩ := hf
  have hflag : ∀ p, y.flag p = x.flag p := fun p => by cases p; exacts [hA, hB]
  have hdA : y.demandA = x.demandA := h.demand .a
  have hdB : y.demandB = x.demandB := h.demand .b
  refine ⟨fun p r hr hb hnone => ?_, fun p r hr hk e he => ?_, fun hs => ?_, ?_, fun p hp => ?_⟩
  · rw [Bay.bears_congr h.state ho fun _ _ => hflag p]
    exact hx.bears p r hr hb hnone
  · rw [h.state]
    exact hx.complete p r hr hk e he
  · have hc := hx.rests (h.state ▸ hs)
    simpa only [Bay.releaseCondition, hA, hB, ho, hdA, hdB] using hc
  · have hfol := hx.follows
    simpa only [Bay.flagsFollowDemands, hA, hB, hdA, hdB] using hfol
  · rw [h.state]
    exact hx.flagged p (hflag p ▸ hp)

theorem exec_keeps_releasesHold {i : Instr} {s t : State} (h : exec i s = .next t) (hs : s.statesAllowed)
    (hr : s.releasesHold) : t.releasesHold := by
  have hmove : ∀ u : State, s.Alike u → u.statesAllowed ∧ u.releasesHold := fun u hu =>
    ⟨hu.toBeside.statesAllowed hs, hu.releasesHold hr⟩
  cases exec_taken h with
  | beside hb ho => exact State.releasesHold_congr hb.bay ho hr
  | @touch u _ b x hu hx hf ht =>
    obtain ⟨-, hur⟩ := hmove u hu
    refine ht.releasesHold ?_
    rw [State.releasesHold_iff] at hur ⊢
    intro c
    rw [State.bay_setBay_eq]
    split
    next hc => subst hc; exact (hx.closes hf (hur c)).congr (funext fun p => by cases p <;> rfl) fun _ _ _ _ => rfl
    next => exact (hur c).congr (funext fun p => by cases p <;> rfl) fun _ _ _ _ => rfl
  | @act u _ b a hu _ hf hne _ ht =>
    obtain ⟨hua, hur⟩ := hmove u hu
    refine ht.releasesHold (State.releasesHold_onBays hua hur a [b] (by simp) (fun c hc => ?_) (fun p ha => ?_) fun p => ?_)
    · rw [List.mem_singleton.mp hc]
      exact hf
    · exact absurd ha (hne p).2
    · exact (hne p).1
  | @demand u _ dt p mask level hu _ _ ht =>
    obtain ⟨hua, hur⟩ := hmove u hu
    exact ht.releasesHold (State.releasesHold_onBays hua hur (.writeDemand p (levelOf level)) (maskBays mask)
      (maskBays_nodup mask) (fun _ _ => trivial) nofun nofun)
  | @listens u _ hu _ _ hl =>
    obtain ⟨hua, hur⟩ := hmove u hu
    exact hl.releasesHold hua hur
  | @accept u _ p tag kind due e hu _ htag hkind hwait ht =>
    obtain ⟨-, hur⟩ := hmove u hu
    exact ht.releasesHold (State.releasesHold_accept hur htag hkind e hwait)
  | @ends u _ p f hu _ hf ht =>
    obtain ⟨-, hur⟩ := hmove u hu
    exact ht.releasesHold (State.releasesHold_endRequests hur p f hf)
  | @release u v _ dt p tag bay timeout b hu _ _ hrefuse hv ht =>
    obtain ⟨hua, hur⟩ := hmove u hu
    subst hv
    exact ht.releasesHold (State.releasesHold_release timeout hua hur (PortUnit.tagInUse_of_refusesRequest hrefuse))
  | @restart u _ dt p hu _ ht =>
    obtain ⟨hua, hur⟩ := hmove u hu
    exact ht.releasesHold (State.releasesHold_restart hua hur p)
  | reset => exact s.releasesHold_partReset

end Sys2Proof.Machine
end

section
/-!
An event of bays that respond ends the requests of a port by their ways (R163, R178 to R180).
-/

namespace Sys2Proof.Machine

/-! ### What the end of a request rests on -/

/-- What of a bay the end of its requests rests on. -/
def Bay.outline (x : Bay) : BayState × Option Phase × Bool := (x.state, x.phase, x.ejectorOpen)

theorem Bay.outline_eq_iff {x y : Bay} :
    y.outline = x.outline ↔ y.state = x.state ∧ y.phase = x.phase ∧ y.ejectorOpen = x.ejectorOpen := by
  simp [Bay.outline]

theorem Bay.outline_of_sansFlags {x y : Bay} (h : y.sansFlags = x.sansFlags) : y.outline = x.outline := by
  simp only [Bay.sansFlags, Bay.mk.injEq] at h
  simp only [Bay.outline, h]

theorem Event.finish_outline (e : Event) (b : BayNo) : (e.finish.bay b).outline = (e.st.bay b).outline :=
  Bay.outline_of_sansFlags (e.finish_sansFlags b)

theorem Bay.statesEntered_congr {x x' y y' : Bay} (hx : x'.outline = x.outline) (hy : y'.outline = y.outline) :
    x'.statesEntered y' = x.statesEntered y := by
  obtain ⟨hxs, hxp, -⟩ := Bay.outline_eq_iff.mp hx
  obtain ⟨hys, hyp, -⟩ := Bay.outline_eq_iff.mp hy
  unfold Bay.statesEntered
  rw [hxs, hxp, hys, hyp]

theorem Request.endedBy_congr {raised : BayNo → Bool} {s s' t t' : State} {r : Request}
    (h : ∀ b, r.kind.bay? = some b → (s'.bay b).outline = (s.bay b).outline ∧ (t'.bay b).outline = (t.bay b).outline) :
    r.endedBy raised s' t' = r.endedBy raised s t := by
  cases hk : r.kind with
  | wait b level =>
    obtain ⟨hs, ht⟩ := h b (by rw [hk]; rfl)
    obtain ⟨-, -, hso⟩ := Bay.outline_eq_iff.mp hs
    obtain ⟨hts, -, hto⟩ := Bay.outline_eq_iff.mp ht
    rw [Request.endedBy_wait _ _ _ hk, Request.endedBy_wait _ _ _ hk, Bay.statesEntered_congr hs ht, hso, hto, hts]
  | release b =>
    obtain ⟨hs, ht⟩ := h b (by rw [hk]; rfl)
    obtain ⟨hts, -, -⟩ := Bay.outline_eq_iff.mp ht
    rw [Request.endedBy_release _ _ _ hk, Request.endedBy_release _ _ _ hk, Bay.statesEntered_congr hs ht, hts]
  | write => rw [Request.endedBy_store _ _ _ (.inl hk), Request.endedBy_store _ _ _ (.inl hk)]
  | reload => rw [Request.endedBy_store _ _ _ (.inr hk), Request.endedBy_store _ _ _ (.inr hk)]

/-- A bay that goes nowhere ends no request. -/
theorem Request.endedBy_of_still {raised : BayNo → Bool} {s t : State} {r : Request}
    (h : ∀ b, r.kind.bay? = some b → (t.bay b).outline = (s.bay b).outline ∧ raised b = false) :
    r.endedBy raised s t = none :=
  (Request.endedBy_congr (s := s) (t := s) fun b hb => ⟨rfl, (h b hb).1⟩).trans
    (Request.endedBy_of_same fun b hb => ⟨rfl, (h b hb).2⟩)

section
variable {p : Port} {s t u v : State}

/-- Where no request ended, the slots of the port are as they were. -/
theorem requestsEnd_of_none {ended : Request → Option (Termination × Reason × BayState)}
    (ho : (t.port p).outstanding = (s.port p).outstanding) (hc : (t.port p).completions = (s.port p).completions)
    (h : ∀ r ∈ (s.port p).outstanding, ended r = none) : RequestsEnd p ended s t [] [] := by
  have hfilter : ((s.port p).outstanding.filter fun r => (ended r).isNone) = (s.port p).outstanding :=
    List.filter_eq_self.mpr fun r hr => by rw [h r hr]; rfl
  have hmap : ((s.port p).outstanding.filterMap fun r => (ended r).map (r.recordAt t.now)) = [] :=
    List.filterMap_eq_nil_iff.mpr fun r hr => by rw [h r hr]; rfl
  refine ⟨?_, ?_⟩
  · rw [ho, hfilter, List.append_nil]
  · rw [hc, hmap, List.append_nil, List.append_nil]

/-- The requests end alike from and to states whose bays and slots stand alike. -/
theorem requestsEnd_congr {ended ended' : Request → Option (Termination × Reason × BayState)}
    (hs : (u.port p).outstanding = (s.port p).outstanding ∧ (u.port p).completions = (s.port p).completions)
    (ht : (t.port p).outstanding = (v.port p).outstanding ∧ (t.port p).completions = (v.port p).completions)
    (hn : t.now = v.now) (he : ∀ r ∈ (s.port p).outstanding, ended' r = ended r)
    (h : RequestsEnd p ended u v [] []) : RequestsEnd p ended' s t [] [] := by
  obtain ⟨ho, hc⟩ := h
  rw [hs.1] at ho hc
  rw [hs.2] at hc
  refine ⟨?_, ?_⟩
  · rw [ht.1, ho]
    exact congrArg (· ++ []) (List.filter_congr fun r hr => by rw [he r hr])
  · rw [ht.2, hc, hn]
    exact congrArg (_ ++ · ++ []) (List.filterMap_congr fun r hr => by rw [he r hr])

end

/-! ### A bay's response as its requests see it -/

/-- What a bay hands on, taken apart: a head that may end a request by itself, then the entries of its way. -/
def Bay.Shows (raised : BayNo → Bool) (p : Port) (b : BayNo) (x y : Bay) (fs : List Fact) : Prop :=
  ∃ head rest, fs = head ++ rest ∧ Heads raised p b x y head ∧ (∀ f ∈ rest, f.entered? = none → f = .leftEmpty) ∧
    x.Went y (entries rest)

theorem Bay.Responds.shows {raised : BayNo → Bool} {p : Port} {b : BayNo} {a : Option Act} {x y : Bay} {fs : List Fact}
    (h : x.Responds a y fs) (ha : ∀ q level, a ≠ some (.writeDemand q level)) (hb : raised b = false) :
    Bay.Shows raised p b x y fs := by
  obtain ⟨rest, htells, hrest⟩ := h.tells
  have hwent := h.went
  cases htells with
  | entries ho => exact ⟨[], _, rfl, .none ho hb, hrest, hwent⟩
  | ejector => exact ⟨[_], rest, rfl, .ejector hb, hrest, hwent⟩
  | demand q level hq => exact absurd hq (ha q level)

/-- An event of several bays ends the requests of a port as the record of it says: those of a bay that responded by what
it handed on, and no other. -/
theorem Event.onBays_requestsEnd {u : State} (bs : List BayNo) (f : Ctx → Work → Work) (hn : bs.Nodup)
    (raised : BayNo → Bool) (p : Port) (hphase : ∀ b, (u.bay b).phase.isSome = true → (u.bay b).state = .loading)
    (h : ∀ r ∈ (u.port p).outstanding, ∀ b, r.kind.bay? = some b →
      (b ∈ bs ∧ u.requestStands p r = true ∧
        Bay.Shows raised p b (u.bay b) (f u.ctx ⟨u.bay b, []⟩).bay (f u.ctx ⟨u.bay b, []⟩).facts) ∨
      (b ∈ bs → (f u.ctx ⟨u.bay b, []⟩).facts = []) ∧
        r.endedBy raised u (u.event.onBays bs f).st = none) :
    RequestsEnd p (Request.endedBy raised u (u.event.onBays bs f).finish) u (u.event.onBays bs f).finish [] [] := by
  have hbay := Event.onBays_bay bs f u.event hn
  have hending := fun (r : Request) (b : BayNo) => u.event.onBays_ending f bs hn p (r := r) (b := b)
  have hslots := u.event.onBays_slots f bs p
  generalize u.event.onBays bs f = e at *
  refine requestsEnd_congr (u := u) (v := e.finish) (ended := Request.endedBy raised u e.st) ⟨rfl, rfl⟩ ⟨rfl, rfl⟩ rfl
    (fun r _ => Request.endedBy_congr fun b _ => ⟨rfl, e.finish_outline b⟩) ?_
  refine e.finish_requestsEnd u p _ hslots fun r hr => ?_
  cases hb : r.kind.bay? with
  | none =>
    have hno : ∀ b, r.kind.bay? ≠ some b := fun b => by rw [hb]; nofun
    exact .inl ⟨eventEnding_eq_none fun b hb' => absurd hb' (hno b), Request.endedBy_of_still fun b hb' => absurd hb' (hno b)⟩
  | some b =>
    have hends : eventEnding p e.facts r =
        if b ∈ bs then (f u.ctx ⟨u.bay b, []⟩).facts.findSome? (kindEnding p r.kind) else none :=
      (hending r b hb).trans (Option.none_or ..)
    obtain ⟨hmem, hstands, head, rest, hfs, hhead, hrest, hwent⟩ | ⟨hfs, hended⟩ := h r hr b hb
    · refine .inr ⟨b, rfl, ?_⟩
      have hy : e.st.bay b = (f u.ctx ⟨u.bay b, []⟩).bay := (hbay b).trans (if_pos hmem)
      rw [← hy] at hhead hwent
      rw [hends, if_pos hmem, hfs, ← eventEnding_shown hhead hrest hwent (hphase b) hb hstands, eventEnding_bayFacts, if_pos hb]
    · refine .inl ⟨?_, hended⟩
      rw [hends]
      split
      next hmem => rw [hfs hmem]; rfl
      next => rfl

end Sys2Proof.Machine
end

section
/-!
Single events end requests as their bays' ways say (R6, R163, R178 to R180).
-/

namespace Sys2Proof.Machine

theorem requestStands_congr {s t : State} (h : ∀ b, t.bay b = s.bay b) (p : Port) (r : Request) :
    t.requestStands p r = s.requestStands p r := by
  cases hb : r.kind.bay? with
  | none => rw [State.requestStands_store _ _ hb, State.requestStands_store _ _ hb]
  | some b => rw [State.requestStands_eq _ _ hb, State.requestStands_eq _ _ hb, h b]

/-- What of a sound part the ends of a port's requests rest on. -/
structure State.Awaits (p : Port) (s : State) : Prop where
  allowed : s.statesAllowed
  stands : ∀ r ∈ (s.port p).outstanding, s.requestStands p r = true
  loading : ∀ b, (s.bay b).phase.isSome = true → (s.bay b).state = .loading

section
variable {p : Port} {s t u v : State} {raised : BayNo → Bool}

theorem State.sound.awaits (h : s.sound) (p : Port) : s.Awaits p := by
  obtain ⟨-, hallowed, -, ⟨hstands, -⟩, -, hbays⟩ := h
  refine ⟨hallowed, hstands p (by cases p <;> simp), fun b hb => ?_⟩
  obtain ⟨-, -, htimers, -⟩ := hbays b
  exact Bay.loading_of_phase htimers hb

theorem State.Awaits.congr (h : s.Awaits p) (hu : s.Beside u) (ho : (u.port p).outstanding = (s.port p).outstanding) :
    u.Awaits p := by
  refine ⟨hu.statesAllowed h.allowed, fun r hr => ?_, fun b hb => ?_⟩
  · rw [requestStands_congr hu.bay]
    exact h.stands r (ho ▸ hr)
  · rw [hu.bay] at hb ⊢
    exact h.loading b hb

/-- How requests end from `u` to `v` is how they end from `s` to `t` where the bays and the port's slots are the same. -/
theorem requestsEnd_transfer (hb : ∀ b, u.bay b = s.bay b) (htb : ∀ b, (t.bay b).outline = (v.bay b).outline)
    (hs : (u.port p).outstanding = (s.port p).outstanding ∧ (u.port p).completions = (s.port p).completions)
    (ht : (t.port p).outstanding = (v.port p).outstanding ∧ (t.port p).completions = (v.port p).completions)
    (hn : t.now = v.now) (h : RequestsEnd p (Request.endedBy raised u v) u v [] []) :
    RequestsEnd p (Request.endedBy raised s t) s t [] [] :=
  requestsEnd_congr hs ht hn
    (fun _ _ => Request.endedBy_congr fun b _ => ⟨congrArg Bay.outline (hb b).symm, htb b⟩) h

/-- Where the bays and the port's slots stand, none of its requests ends. -/
theorem requestsEnd_of_still (hb : ∀ b, (t.bay b).outline = (s.bay b).outline)
    (ho : (t.port p).outstanding = (s.port p).outstanding) (hc : (t.port p).completions = (s.port p).completions) :
    RequestsEnd p (Request.endedBy (fun _ => false) s t) s t [] [] :=
  requestsEnd_of_none ho hc fun _ _ => Request.endedBy_of_still fun b _ => ⟨hb b, rfl⟩

/-! ### Responses -/

/-- Bays that respond end the requests for them; a write of a demand column is told apart. -/
theorem State.Awaits.requestsEnd_onBays (hu : u.Awaits p) (a : Act) (bs : List BayNo) (hn : bs.Nodup)
    (hfit : ∀ b ∈ bs, a.Fits u b) (hdemand : ∀ q level, a ≠ .writeDemand q level) :
    RequestsEnd p (Request.endedBy (fun _ => false) u (u.event.onBays bs a.run).finish) u
      (u.event.onBays bs a.run).finish [] [] := by
  refine Event.onBays_requestsEnd bs a.run hn _ p hu.loading fun r hr b _ => ?_
  by_cases hb : b ∈ bs
  · obtain ⟨hfault, hgrant⟩ := (hfit b hb).states hu.allowed.1
    have h := a.run_responds u.ctx (hu.allowed.2 b) (fun h => (hfault h).1) fun sn h => (hgrant sn h).1
    exact .inl ⟨hb, hu.stands r hr, h.shows (fun q level h => hdemand q level (Option.some.inj h)) rfl⟩
  · refine .inr ⟨fun h => absurd h hb, Request.endedBy_of_still fun c hc => ⟨?_, rfl⟩⟩
    have hcb : c = b := by simp_all
    rw [hcb, Event.onBays_bay _ _ _ hn, if_neg hb, State.event_st]

/-! ### SET DEMAND -/

/-- A write of a column hands on the raised demand first (R6, R163). -/
theorem Work.writeDemand_shows (q p : Port) (level : Demand) {c : Ctx} {x : Bay} {b : BayNo}
    (hx : x.stateAllowed c.motion = true) (hp : x.present = true) (hb : raised b = decide (q = p ∧ level ≠ .stop)) :
    Bay.Shows raised p b x (Work.writeDemand q level c ⟨x, []⟩).bay (Work.writeDemand q level c ⟨x, []⟩).facts := by
  have hwent := (Act.run_responds (.writeDemand q level) c hx nofun nofun).went
  dsimp only [Act.run] at hwent
  rw [Work.writeDemand_present q level c hp] at hwent ⊢
  have hg : Work.Goes c ⟨x.written q level c, writtenFacts q level⟩ _ := Work.Goes.stay.demandWritten x.merged
  obtain ⟨rest, hfs, hall⟩ := hg.facts
  have hejector : (Work.demandWritten c x.merged ⟨x.written q level c, writtenFacts q level⟩).bay.ejectorOpen =
      x.ejectorOpen := by
    obtain ⟨-, -, hejector, -⟩ := Bay.keeps_of_sansDemands (x.sansDemands_written q level c)
    exact hg.inputs.ejectorOpen.trans hejector
  refine ⟨writtenFacts q level, rest, hfs, ?_, fun f hf hnone => ?_, ?_⟩
  · by_cases hl : level = .stop
    · rw [show writtenFacts q level = [] from if_pos hl] at hejector ⊢
      exact .none hejector (by simpa [hl] using hb)
    · rw [show writtenFacts q level = [.demandRaised q] from if_neg hl] at hejector ⊢
      exact .demand q hejector (by simp [hb, hl])
  · obtain hf | ⟨st, -, rfl⟩ := hall f hf
    · exact hf
    · cases hnone
  · have hentries : entries (Work.demandWritten c x.merged ⟨x.written q level c, writtenFacts q level⟩).facts = entries rest := by
      rw [hfs]
      dsimp only
      unfold writtenFacts
      split <;> rfl
    rwa [hentries] at hwent

/-- An absent bay has no RELEASE BAY outstanding (R163). -/
theorem State.Awaits.present_of_release (h : s.Awaits p) {r : Request} {b : BayNo} (hr : r ∈ (s.port p).outstanding)
    (hk : r.kind = .release b) : (s.bay b).present = true := by
  have hstands := (s.requestStands_eq p (by rw [hk]; rfl)).symm.trans (h.stands r hr)
  rw [hk] at hstands
  refine Bay.present_of_allowed (h.allowed.2 b) fun hempty => ?_
  exact Bay.not_mem_of_bears_release hstands (by simp [hempty])

theorem State.Awaits.requestsEnd_writeDemand (hu : u.Awaits p) (q : Port) (mask level : Byte)
    (hraised : ∀ b, raised b = (decide (q = p) && decide (level ≠ 0) && mask.getLsbD b.val)) :
    RequestsEnd p (Request.endedBy raised u (u.demandEvent q mask (levelOf level)).finish) u
      (u.demandEvent q mask (levelOf level)).finish [] [] := by
  have hlevel : levelOf level ≠ .stop ↔ level ≠ 0 :=
    ⟨fun h hl => h (by rw [levelOf_eq, if_pos hl]), levelOf_ne_stop⟩
  refine Event.onBays_requestsEnd (maskBays mask) _ (maskBays_nodup mask) raised p hu.loading fun r hr b hk => ?_
  by_cases hb : b ∈ maskBays mask ∧ (u.bay b).present = true
  · obtain ⟨hb, hpresent⟩ := hb
    refine .inl ⟨hb, hu.stands r hr, Work.writeDemand_shows q p _ (hu.allowed.2 b) hpresent ?_⟩
    rw [hraised, (mem_maskBays mask b).mp hb, Bool.and_true, ← Bool.decide_and]
    exact decide_eq_decide.mpr (and_congr_right fun _ => hlevel.symm)
  · have habsent : b ∈ maskBays mask → (u.bay b).present = false := fun hmem => by simpa [hmem] using hb
    have hstill : ((u.demandEvent q mask (levelOf level)).st.bay b).outline = (u.bay b).outline := by
      rw [State.demandEvent_bay]
      split
      next hmem => rw [Work.writeDemand_absent q _ _ (habsent hmem)]
      next => rfl
    refine .inr ⟨fun hmem => by rw [Work.writeDemand_absent q _ _ (habsent hmem)], ?_⟩
    cases hkind : r.kind with
    | release c =>
      have hcb : c = b := by
        rw [hkind] at hk
        exact Option.some.inj hk
      subst hcb
      have hout : c ∉ maskBays mask := fun hmem => hb ⟨hmem, hu.present_of_release hr hkind⟩
      refine Request.endedBy_of_still fun d hd => ?_
      obtain rfl := Option.some.inj (hk.symm.trans hd)
      exact ⟨hstill, by rw [hraised, Bool.eq_false_iff.mpr (mt (mem_maskBays mask c).mpr hout), Bool.and_false]⟩
    | wait c awaited =>
      have hwait := Request.endedBy_of_still (raised := fun _ => false) (s := u)
        (t := (u.demandEvent q mask (levelOf level)).st) (r := r) fun d hd => by
          obtain rfl := Option.some.inj (hk.symm.trans hd)
          exact ⟨hstill, rfl⟩
      rwa [Request.endedBy_wait _ _ _ hkind] at hwait ⊢
    | write => exact Request.endedBy_store _ _ _ (.inl hkind)
    | reload => exact Request.endedBy_store _ _ _ (.inr hkind)

end

end Sys2Proof.Machine
end

section
/-!
The motion state within one event: once it has left QUIET and STIRRED it comes back to neither of them, nor to TRANSIT,
at the same moment (R139 to R147).
-/

namespace Sys2Proof.Machine

/-- The dwells that stand between a departure from the calm states and a return are longer than none (R187). -/
structure CaseSettings.Dwells (cs : CaseSettings) : Prop where
  rough : (0 : Nat) < cs.roughDwell
  transit : (0 : Nat) < cs.transitDwell
  hold : (0 : Nat) < cs.alarmHold

theorem CaseSettings.dwells_of_inRange {cs : CaseSettings} (h : cs.inRange = true) : cs.Dwells := by
  simp only [CaseSettings.inRange, inBounds, CaseSettings.fields, caseBounds, List.zip_cons_cons, List.zip_nil_right,
    List.all_cons, List.all_nil, Bool.and_eq_true, decide_eq_true_eq] at h
  constructor <;> omega

/-- A record whose state was entered, and whose marks were set, at `t`: ROUGH, ALARM that is not to end in TRANSIT,
or BLIND. -/
def MotionRecord.Fresh (t : Millis) (m : MotionRecord) : Prop :=
  match m.state with
  | .rough => m.roughSince = some t ∧ ∀ u ∈ m.smoothSince, u = t
  | .alarm => m.alarmAt = some t ∧ m.alarmOrigin ≠ some .transit
  | .blind => True
  | _ => False

/-- QUIET and STIRRED, in which heads may stand on the platters (R82). -/
def Motion.calm (m : Motion) : Bool := m = .quiet || m = .stirred

namespace MotionRecord
variable {cs : CaseSettings} {t : Millis} {m m' : MotionRecord}

theorem fresh_enterRough (j : Judged) (m : MotionRecord) : (m.enterRough t j).Fresh t := by
  simp [Fresh, enterRough, bare]

theorem fresh_enterAlarm {o : AlarmOrigin} (h : o ≠ .transit) (m : MotionRecord) : (m.enterAlarm t o).Fresh t := by
  simp [Fresh, enterAlarm, bare, h]

theorem fresh_blinded (cs : CaseSettings) (m : MotionRecord) : (m.blinded cs).Fresh t := by
  simp [Fresh, blinded, bare]

theorem fresh_miss (h : m.Fresh t) : m.miss.Fresh t := by
  unfold MotionRecord.miss
  split
  exacts [h, h]

theorem earnOrigin_state (cs : CaseSettings) (m : MotionRecord) : (m.earnOrigin cs).state = m.state := by
  unfold earnOrigin
  split <;> rfl

theorem earnOrigin_alarm (cs : CaseSettings) (m : MotionRecord) :
    (m.earnOrigin cs).alarmAt = m.alarmAt ∧
      (m.alarmOrigin ≠ some .transit → (m.earnOrigin cs).alarmOrigin ≠ some .transit) := by
  unfold earnOrigin
  split <;> simp

theorem not_reached_now {mark : Option Millis} {len : Millis} (hlen : 0 < len) (h : ∀ u ∈ mark, u = t) :
    reached t mark len = false := by
  cases mark with
  | none => rfl
  | some u =>
    have hu : u = t := h u rfl
    have hne : len ≠ 0 := Nat.pos_iff_ne_zero.mp hlen
    simp [reached, hu, hne]

/-- A shock sets ALARM afresh (R138). -/
theorem fresh_alarmed (h : m.Fresh t ∨ m.state.calm = true) : (m.alarmed cs t).Fresh t := by
  unfold alarmed
  cases hs : m.state with
  | quiet => exact m.fresh_enterAlarm (by decide)
  | stirred => exact m.fresh_enterAlarm (by decide)
  | rough => exact m.fresh_enterAlarm (by decide)
  | transit => simp [Fresh, Motion.calm, hs] at h
  | blind => exact m.fresh_enterAlarm (by split <;> decide)
  | alarm =>
    obtain ⟨-, horigin⟩ := m.earnOrigin_alarm cs
    simp only [Fresh, Motion.calm, hs] at h
    simp only [Fresh, earnOrigin_state, hs]
    have hnot : m.alarmOrigin ≠ some .transit := by simpa using h.imp_left And.right
    exact ⟨trivial, horigin hnot⟩

/-- A sample without a shock leaves a fresh record fresh: its dwells have not passed (R139, R142, R143, R147). -/
theorem fresh_calmly (hcs : cs.Dwells) (j : Judged) (h : m.Fresh t) : (m.calmly cs t j).Fresh t := by
  unfold calmly
  cases hs : m.state with
  | quiet => simp [Fresh, hs] at h
  | stirred => simp [Fresh, hs] at h
  | transit => simp [Fresh, hs] at h
  | rough =>
    obtain ⟨hrough, hsmooth⟩ : m.roughSince = some t ∧ ∀ u ∈ m.smoothSince, u = t := by simpa only [Fresh, hs] using h
    have hmark : ∀ u ∈ (if j.rough then none else some (m.smoothSince.getD t)), u = t := by
      intro u hu
      split at hu
      · cases hu
      · obtain rfl := Option.mem_some.mp hu
        cases hm : m.smoothSince with
        | none => rfl
        | some v => exact hsmooth v hm
    dsimp only
    rw [not_reached_now hcs.rough hmark, hrough, not_reached_now (Nat.mul_pos (by decide) hcs.transit) (by simp)]
    simp only [Bool.false_eq_true, if_false, Fresh]
    exact ⟨trivial, hmark⟩
  | alarm =>
    obtain ⟨hat, horigin⟩ : m.alarmAt = some t ∧ m.alarmOrigin ≠ some .transit := by simpa only [Fresh, hs] using h
    obtain ⟨hkeeps, hearns⟩ := m.earnOrigin_alarm cs
    dsimp only
    rw [hat, not_reached_now hcs.hold (by simp)]
    simp only [Bool.false_eq_true, if_false, Fresh, earnOrigin_state, hs]
    exact ⟨hkeeps.trans hat, hearns horigin⟩
  | blind =>
    dsimp only
    split
    · exact m.fresh_enterRough j
    · exact h

/-- The calm states are left for ROUGH alone without a shock (R140, R141). -/
theorem fresh_calmly_of_calm (j : Judged) (h : m.state.calm = true) (hl : (m.calmly cs t j).state.calm = false) :
    (m.calmly cs t j).Fresh t := by
  unfold calmly at hl ⊢
  cases hs : m.state with
  | quiet =>
    rw [hs] at hl
    dsimp only at hl ⊢
    split
    · exact m.fresh_enterRough j
    next hr =>
      rw [if_neg hr] at hl
      split at hl <;> simp [Motion.calm, hs, enterCalming, bare] at hl
  | stirred =>
    rw [hs] at hl
    dsimp only at hl ⊢
    split
    · exact m.fresh_enterRough j
    next hr =>
      rw [if_neg hr] at hl
      split at hl
      · split at hl <;> simp [Motion.calm, bare] at hl
      · simp [Motion.calm] at hl
  | _ => simp [Motion.calm, hs] at h

/-- A fresh record stays fresh at its moment. -/
theorem Follows.fresh (h : m.Follows cs t m') (hcs : cs.Dwells) (hm : m.Fresh t) : m'.Fresh t := by
  cases h with
  | accept p =>
    unfold MotionRecord.accept
    dsimp only
    split
    · exact fresh_alarmed (.inl hm)
    · exact fresh_calmly hcs _ hm
  | miss => exact fresh_miss hm
  | blinded => exact m.fresh_blinded cs

/-- A record that leaves the calm states is fresh. -/
theorem Follows.fresh_of_calm (h : m.Follows cs t m') (hm : m.state.calm = true) (hm' : m'.state.calm = false) :
    m'.Fresh t := by
  cases h with
  | accept p =>
    unfold MotionRecord.accept at hm' ⊢
    dsimp only at hm' ⊢
    split
    · exact fresh_alarmed (.inr hm)
    next he =>
      rw [if_neg he] at hm'
      exact fresh_calmly_of_calm _ hm hm'
  | miss =>
    have hs : m.miss.state = m.state := by
      unfold MotionRecord.miss
      split <;> rfl
    rw [hs, hm] at hm'
    cases hm'
  | blinded => exact m.fresh_blinded cs

/-- A fresh record is in none of the states that a load or a spin-down waits for. -/
theorem Fresh.state_mem (h : m.Fresh t) : m.state ∈ [.rough, .alarm, .blind] := by
  unfold Fresh at h
  cases hs : m.state <;> rw [hs] at h <;> simp at h ⊢

end MotionRecord

end Sys2Proof.Machine
end

section
/-!
The ways of a bay under motion changes, and where several of them at one moment may lead it (R47, R82, R83, R96).
-/

namespace Sys2Proof.Machine

/-- The ways of a bay under one motion change. -/
def BayState.motionWays : BayState → List (List BayState)
  | .spinningUp => [[], [.spinningDown]]
  | .spun => [[], [.loading], [.spinningDown]]
  | .loading | .ready => [[], [.retracting], [.unloading], [.unloading, .spun], [.unloading, .spinningDown]]
  | .unloading => [[], [.retracting]]
  | _ => [[]]

theorem BayState.nil_mem_motionWays (st : BayState) : [] ∈ st.motionWays := by
  cases st <;> decide

theorem Work.toUnloading_motionWays {c : Ctx} {x : Bay} (ht : x.Turns) (hf : x.fltOn = false) (hm : c.motion ≠ .quiet) :
    entries (Work.toUnloading c ⟨x, []⟩).facts ∈ [[.unloading], [.unloading, .spun], [.unloading, .spinningDown]] := by
  rw [Work.toUnloading_entries (w := ⟨x, []⟩) ht]
  obtain ⟨hway, hexit⟩ := Bay.spunWay_of_no_load (m := c.motion) (x := x) (.inr hm)
  have hne : x.spunExit c.motion ≠ .faulted := by
    unfold Bay.spunExit
    rw [hf]
    simp only [Bool.false_eq_true, if_false]
    split
    · simp
    · split <;> simp
  dsimp only
  rw [hway]
  revert hexit hne
  generalize x.spunExit c.motion = st
  cases x.prkOn <;> cases st <;> decide

theorem Work.motionChanged_motionWays {m : Motion} (c : Ctx) {x : Bay} (hx : x.Stands m) :
    entries (Work.motionChanged c ⟨x, []⟩).facts ∈ x.state.motionWays := by
  have ht : x.state ∈ [.spinningUp, .spun, .loading, .ready, .unloading] → x.Turns := fun hs =>
    Bay.turns_of hx.lines hx.monitor (.inl hs)
  have hf := Bay.fltOn_of_allowed hx.allowed
  have hoff : ((c.motion = .rough : Bool) || (c.motion = .transit) || (c.motion = .blind)) = true → c.motion ≠ .quiet := by
    cases c.motion <;> simp
  have hunload : x.state ∈ [.loading, .ready] → c.motion ≠ .quiet →
      entries (Work.toUnloading c ⟨x, []⟩).facts ∈ BayState.motionWays .loading := fun hs hm =>
    List.mem_cons_of_mem _ (List.mem_cons_of_mem _
      (Work.toUnloading_motionWays (ht (by revert hs; cases x.state <;> simp)) (hf (by revert hs; cases x.state <;> simp)) hm))
  have hstay : entries (⟨x, []⟩ : Work).facts ∈ x.state.motionWays := x.state.nil_mem_motionWays
  have hretract : ∀ cause, x.state ∈ [.loading, .ready, .unloading] →
      entries (Work.toRetracting c cause ⟨x, []⟩).facts ∈ x.state.motionWays := fun cause => by
    rw [Work.toRetracting_entries]
    cases x.state <;> simp [BayState.motionWays, entries]
  unfold Work.motionChanged
  dsimp only
  split
  next hst =>
    split
    · have ht := ht (by simp [hst])
      rw [Work.toSpinningDown_entries (w := Work.edit Bay.clearRetry ⟨x, []⟩) false ⟨ht.spin, ht.restMark⟩, hst]
      exact List.mem_cons_of_mem _ (List.mem_singleton_self _)
    · exact hstay
  next hst =>
    rw [hst, Work.spunTest_entries (w := ⟨x, []⟩) (ht (by simp [hst])) (Bay.spun_of_allowed hx.allowed hst).2]
    dsimp only
    cases x.mustSpinDown c <;> cases x.mayLoad c <;> decide
  next hst =>
    split
    · split
      exacts [hretract _ (by simp [hst]), hstay]
    · split
      · exact hretract _ (by simp [hst])
      · split
        next ho => rw [hst]; exact hunload (by simp [hst]) (hoff ho)
        next => exact hstay
  next hst =>
    split
    · exact hretract _ (by simp [hst])
    · split
      next ho => rw [hst]; exact hunload (by simp [hst]) (hoff ho)
      next => exact hstay
  next hst =>
    split
    exacts [hretract _ (by simp [hst]), hstay]
  all_goals exact hstay

/-! ### Where motion changes may lead a bay -/

/-- Where motion changes lead a bay that has no heads on the platters. -/
def BayState.drift : BayState → List BayState
  | .spinningUp => [.spinningUp, .spinningDown]
  | .spun => [.spun, .loading, .unloading, .retracting, .spinningDown]
  | .unloading => [.unloading, .retracting]
  | st => [st]

theorem BayState.drift_closed : ∀ st : BayState, st ∉ [.loading, .ready] → ∀ st' ∈ st.drift, ∀ l ∈ st'.motionWays,
    (∀ e ∈ l, e ∈ st.drift) ∧ l.getLastD st' ∈ st.drift := by
  intro st
  cases st <;> decide

theorem BayState.between_drift : ∀ st : BayState, st ∉ [.loading, .ready] → ∀ st' ∈ st.drift, st' ≠ st →
    ∀ e ∈ st.between st', e ∈ st.drift := by
  intro st
  cases st <;> decide

theorem waitEnding_drift : ∀ (level : Demand) (st : BayState), st ∉ [.loading, .ready] →
    st ∉ waitStates level → (level = .stop ∨ st ∉ [.faulted, .empty]) → ∀ st' ∈ st.drift,
      waitEnding level (.entered st') = none := by
  intro level st
  cases level <;> cases st <;> decide

theorem releaseEnding_drift (p : Port) : ∀ st : BayState, st ∉ [.empty, .faulted, .released] → ∀ st' ∈ st.drift,
    releaseEnding p (.entered st') = none := by
  intro st
  cases p <;> cases st <;> decide

/-- None of the states that motion changes lead to ends a request for a bay that has no heads on the platters. -/
theorem Bay.drift_ends_none {p : Port} {x : Bay} {k : RequestKind} (hx : x.bears p k = true) (hs : x.state ∉ [.loading, .ready])
    {st : BayState} (hst : st ∈ x.state.drift) : kindEnding p k (.entered st) = none := by
  cases k with
  | wait b level =>
    simp only [Bay.bears, Bool.and_eq_true, Bool.or_eq_true, decide_eq_true_eq] at hx
    exact waitEnding_drift level _ hs hx.1 (hx.2.imp_right And.left) st hst
  | release b => exact releaseEnding_drift p _ (Bay.not_mem_of_bears_release hx) st hst
  | write => rfl
  | reload => rfl

theorem kindEnding_leftEmpty (p : Port) (k : RequestKind) : kindEnding p k .leftEmpty = none := by
  cases k <;> rfl

/-- Facts of a motion change end a request as their entries do. -/
theorem findSome_kindEnding_eq_none {p : Port} {k : RequestKind} {fs : List Fact}
    (hplain : ∀ f ∈ fs, f.entered? = none → f = .leftEmpty)
    (h : ∀ st ∈ entries fs, kindEnding p k (.entered st) = none) : fs.findSome? (kindEnding p k) = none := by
  rw [List.findSome?_eq_none_iff]
  intro f hf
  cases f with
  | entered st => exact h st ((mem_entries st fs).mpr hf)
  | leftEmpty => exact kindEnding_leftEmpty p k
  | ejectorSet o => exact absurd (hplain _ hf rfl) (by simp)
  | demandRaised q => exact absurd (hplain _ hf rfl) (by simp)

/-- A bay whose entered states end none of its requests. -/
theorem Request.endedBy_eq_none {p : Port} {s t : State} {r : Request} {b : BayNo} (hb : r.kind.bay? = some b)
    (ho : (t.bay b).ejectorOpen = (s.bay b).ejectorOpen)
    (h : ∀ st ∈ (s.bay b).statesEntered (t.bay b), kindEnding p r.kind (.entered st) = none) :
    r.endedBy (fun _ => false) s t = none := by
  cases hk : r.kind with
  | wait c level =>
    rw [hk] at hb h
    cases hb
    rw [Request.endedBy_wait _ _ _ hk, if_neg (by simp [ho]), List.findSome?_eq_none_iff]
    intro st hst
    rw [← waitEnding_entered level st st]
    exact congrArg (Option.map _) (h st hst)
  | release c =>
    rw [hk] at hb h
    cases hb
    rw [Request.endedBy_release _ _ _ hk, if_neg (by simp), List.findSome?_eq_none_iff]
    intro st hst
    rw [← releaseEnding_entered p st st]
    exact congrArg (Option.map _) (h st hst)
  | write => exact Request.endedBy_store _ _ _ (.inl hk)
  | reload => exact Request.endedBy_store _ _ _ (.inr hk)

/-- Heads on the platters stay there while the motion is calm (R82). -/
theorem Work.motionChanged_of_calm {c : Ctx} {x : Bay} (hs : x.state ∈ [.loading, .ready]) (hc : c.motion.calm = true) :
    Work.motionChanged c ⟨x, []⟩ = ⟨x, []⟩ := by
  simp only [List.mem_cons, List.not_mem_nil, or_false] at hs
  obtain hs | hs := hs <;> unfold Work.motionChanged <;> rw [hs] <;> cases hm : c.motion <;> simp [Motion.calm, hm] at hc ⊢

/-- Heads leave the platters when the motion does not stay calm; where the disc may go on turning the bay goes no
further than SPUN (R83, R85). -/
theorem Work.motionChanged_leaves {m : Motion} {c : Ctx} {x : Bay} (hx : x.Stands m) (hs : x.state ∈ [.loading, .ready])
    (hc : c.motion ∈ [.rough, .alarm, .blind]) :
    (Work.motionChanged c ⟨x, []⟩).bay.state ∈ [.unloading, .retracting, .spun] := by
  obtain ⟨⟨hmerged, hejector⟩, -⟩ := Bay.onPlatters_of_allowed hx.allowed (by simpa using hs)
  have hstate := (Work.motionChanged_tracks c x).state
  have hentries : entries (Work.motionChanged c ⟨x, []⟩).facts ∈ [[.retracting], [.unloading], [.unloading, .spun]] := by
    have ht : x.Turns := Bay.turns_of hx.lines hx.monitor (.inl (by revert hs; cases x.state <;> simp))
    have hf : x.fltOn = false := Bay.fltOn_of_allowed hx.allowed (by revert hs; cases x.state <;> simp)
    have hexit : x.spunExit c.motion = .spun := by
      revert hc
      cases c.motion <;> simp [Bay.spunExit, hf, hmerged, hejector]
    have hunload : entries (Work.toUnloading c ⟨x, []⟩).facts ∈ [[.retracting], [.unloading], [.unloading, .spun]] := by
      rw [Work.toUnloading_entries (w := ⟨x, []⟩) ht]
      dsimp only
      rw [Bay.spunWay, hexit]
      cases x.prkOn <;> decide
    have hretract : ∀ cause, entries (Work.toRetracting c cause ⟨x, []⟩).facts ∈
        [[.retracting], [.unloading], [.unloading, .spun]] := fun cause => by
      rw [Work.toRetracting_entries]
      exact List.mem_cons_self ..
    have hout : c.motion = .alarm ∨ ((c.motion = .rough : Bool) || (c.motion = .transit) || (c.motion = .blind)) = true := by
      revert hc
      cases c.motion <;> simp
    simp only [List.mem_cons, List.not_mem_nil, or_false] at hs
    unfold Work.motionChanged
    obtain hs | hs := hs <;> dsimp only <;> rw [hs] <;> dsimp only
    · split
      · rw [if_pos (by simpa [or_comm] using hout)]
        exact hretract _
      · split
        · exact hretract _
        next ha => rw [if_pos (hout.resolve_left ha)]; exact hunload
    · split
      · exact hretract _
      next ha => rw [if_pos (hout.resolve_left ha)]; exact hunload
  rw [hstate, getLast_cons_eq_getLastD]
  generalize entries (Work.motionChanged c ⟨x, []⟩).facts = l at hentries
  simp only [List.mem_cons, List.not_mem_nil, or_false] at hentries
  obtain rfl | rfl | rfl := hentries <;> simp

/-- Where the motion stays off the calm states and TRANSIT, a bay that left the platters parks at most (R96). -/
theorem Work.motionChanged_parked {m : Motion} {c : Ctx} {x : Bay} (hx : x.Stands m)
    (hs : x.state ∈ [.unloading, .retracting, .spun]) (hc : c.motion ∈ [.rough, .alarm, .blind]) :
    (Work.motionChanged c ⟨x, []⟩).bay.state = x.state ∧ entries (Work.motionChanged c ⟨x, []⟩).facts = [] ∨
      x.state = .unloading ∧ (Work.motionChanged c ⟨x, []⟩).bay.state = .retracting ∧
        entries (Work.motionChanged c ⟨x, []⟩).facts = [.retracting] := by
  have hstate := (Work.motionChanged_tracks c x).state
  rw [getLast_cons_eq_getLastD] at hstate
  have hways := Work.motionChanged_motionWays c hx
  have hspun : x.state = .spun → entries (Work.motionChanged c ⟨x, []⟩).facts = [] := fun hst => by
    obtain ⟨⟨⟨hmerged, hejector⟩, -⟩, hk⟩ := Bay.spun_of_allowed hx.allowed hst
    rw [show Work.motionChanged c ⟨x, []⟩ = Work.spunTest c ⟨x, []⟩ by simp [Work.motionChanged, hst],
      Work.spunTest_entries (w := ⟨x, []⟩) (Bay.turns_of hx.lines hx.monitor (.inl (by simp [hst]))) hk]
    dsimp only
    have hdown : x.mustSpinDown c = false := by
      revert hc
      cases hm : c.motion <;> simp [Bay.mustSpinDown, hmerged, hejector, hm]
    have hload : x.mayLoad c = false := by
      revert hc
      cases hm : c.motion <;> simp [Bay.mayLoad, hm]
    rw [hdown, hload]
    rfl
  generalize entries (Work.motionChanged c ⟨x, []⟩).facts = l at *
  simp only [List.mem_cons, List.not_mem_nil, or_false] at hs
  obtain hs | hs | hs := hs
  · rw [hs] at hways
    simp only [BayState.motionWays, List.mem_cons, List.not_mem_nil, or_false] at hways
    obtain rfl | rfl := hways
    · exact .inl ⟨hstate, rfl⟩
    · exact .inr ⟨hs, hstate, rfl⟩
  · rw [hs] at hways
    obtain rfl := List.mem_singleton.mp hways
    exact .inl ⟨hstate, rfl⟩
  · obtain rfl := hspun hs
    exact .inl ⟨hstate, rfl⟩

end Sys2Proof.Machine
end

section
/-!
A run of sensor samples and the requests of a port: nothing ends until the motion leaves the calm states, and all that
ends, ends there (R83, R163, R178 to R180).
-/

namespace Sys2Proof.Machine

/-! ### Bays -/

/-- A bay that no motion change has taken off the platters. -/
structure Bay.Waits (x y : Bay) : Prop where
  ejector : y.ejectorOpen = x.ejectorOpen
  drifts : x.state ∉ [.loading, .ready] → y.state ∈ x.state.drift
  holds : x.state ∈ [.loading, .ready] → y.state = x.state ∧ y.phase = x.phase

/-- A bay once the motion has left the calm states. -/
structure Bay.Parted (x y : Bay) : Prop where
  ejector : y.ejectorOpen = x.ejectorOpen
  drifts : x.state ∉ [.loading, .ready] → y.state ∈ x.state.drift
  leaves : x.state ∈ [.loading, .ready] → y.state ∈ [.unloading, .retracting, .spun]

theorem Bay.Waits.congr {x y z : Bay} (h : x.Waits y) (hz : z.outline = y.outline) : x.Waits z := by
  obtain ⟨hs, hp, ho⟩ := Bay.outline_eq_iff.mp hz
  exact ⟨ho.trans h.ejector, fun hx => hs ▸ h.drifts hx, fun hx => by rw [hs, hp]; exact h.holds hx⟩

theorem Bay.Parted.congr {x y z : Bay} (h : x.Parted y) (hz : z.outline = y.outline) : x.Parted z := by
  obtain ⟨hs, -, ho⟩ := Bay.outline_eq_iff.mp hz
  exact ⟨ho.trans h.ejector, fun hx => hs ▸ h.drifts hx, fun hx => hs ▸ h.leaves hx⟩

theorem Bay.Waits.refl (x : Bay) : x.Waits x :=
  ⟨rfl, fun _ => by cases x.state <;> decide, fun _ => ⟨rfl, rfl⟩⟩

section
variable {c : Ctx} {m : Motion} {x y : Bay}

theorem Work.motionChanged_ejectorOpen (c : Ctx) (y : Bay) :
    (Work.motionChanged c ⟨y, []⟩).bay.ejectorOpen = y.ejectorOpen :=
  (Work.Goes.stay.motionChanged : Work.Goes c ⟨y, []⟩ _).inputs.ejectorOpen

theorem Work.motionChanged_plain (hy : y.Stands m) :
    ∀ f ∈ (Work.motionChanged c ⟨y, []⟩).facts, f.entered? = none → f = .leftEmpty := by
  obtain ⟨rest, htells, hrest⟩ := (Work.motionChanged_responds (c := c) hy.allowed).tells
  obtain ⟨rfl, -⟩ := htells.plain nofun nofun
  exact hrest

/-- A bay off the platters drifts on, through states that end none of its requests. -/
theorem Work.motionChanged_drift (hy : y.Stands m) (hx : x.state ∉ [.loading, .ready]) (hd : y.state ∈ x.state.drift) :
    (∀ st ∈ entries (Work.motionChanged c ⟨y, []⟩).facts, st ∈ x.state.drift) ∧
      (Work.motionChanged c ⟨y, []⟩).bay.state ∈ x.state.drift := by
  rw [(Work.motionChanged_tracks c y).state, getLast_cons_eq_getLastD]
  exact BayState.drift_closed _ hx _ hd _ (Work.motionChanged_motionWays c hy)

theorem Work.motionChanged_drift_ends {p : Port} {k : RequestKind} (hy : y.Stands m) (hx : x.state ∉ [.loading, .ready])
    (hd : y.state ∈ x.state.drift) (hb : x.bears p k = true) :
    (Work.motionChanged c ⟨y, []⟩).facts.findSome? (kindEnding p k) = none :=
  findSome_kindEnding_eq_none (Work.motionChanged_plain hy) fun _ hst =>
    Bay.drift_ends_none hb hx ((Work.motionChanged_drift hy hx hd).1 _ hst)

theorem Bay.Waits.motionChanged (h : x.Waits y) (hy : y.Stands m) (hc : x.state ∈ [.loading, .ready] → c.motion.calm = true) :
    x.Waits (Work.motionChanged c ⟨y, []⟩).bay := by
  refine ⟨(Work.motionChanged_ejectorOpen c y).trans h.ejector, fun hx => (Work.motionChanged_drift hy hx (h.drifts hx)).2,
    fun hx => ?_⟩
  obtain ⟨hs, hp⟩ := h.holds hx
  rw [Work.motionChanged_of_calm (hs ▸ hx) (hc hx)]
  exact ⟨hs, hp⟩

theorem Bay.Waits.parted (h : x.Waits y) (hy : y.Stands m) (hc : c.motion ∈ [.rough, .alarm, .blind]) :
    x.Parted (Work.motionChanged c ⟨y, []⟩).bay :=
  ⟨(Work.motionChanged_ejectorOpen c y).trans h.ejector, fun hx => (Work.motionChanged_drift hy hx (h.drifts hx)).2,
    fun hx => Work.motionChanged_leaves hy ((h.holds hx).1 ▸ hx) hc⟩

theorem Bay.Parted.motionChanged (h : x.Parted y) (hy : y.Stands m) (hc : c.motion ∈ [.rough, .alarm, .blind]) :
    x.Parted (Work.motionChanged c ⟨y, []⟩).bay := by
  refine ⟨(Work.motionChanged_ejectorOpen c y).trans h.ejector, fun hx => (Work.motionChanged_drift hy hx (h.drifts hx)).2,
    fun hx => ?_⟩
  obtain ⟨hs, -⟩ | ⟨-, hs, -⟩ := Work.motionChanged_parked hy (h.leaves hx) hc
  · exact hs ▸ h.leaves hx
  · rw [hs]
    decide

end

/-! ### The requests of a bay -/

section
variable {p : Port} {s t : State} {r : Request} {b : BayNo}

/-- A bay off the platters ends none of its requests by drifting. -/
theorem Request.endedBy_drift (hb : r.kind.bay? = some b) (hstands : s.requestStands p r = true)
    (hphase : (s.bay b).phase.isSome = true → (s.bay b).state = .loading) (hx : (s.bay b).state ∉ [.loading, .ready])
    (hd : (t.bay b).state ∈ (s.bay b).state.drift) (ho : (t.bay b).ejectorOpen = (s.bay b).ejectorOpen) :
    r.endedBy (fun _ => false) s t = none := by
  rw [State.requestStands_eq s p hb] at hstands
  refine Request.endedBy_eq_none (p := p) hb ho fun st hst => Bay.drift_ends_none hstands hx ?_
  by_cases hs : (t.bay b).state = (s.bay b).state
  · have hsettle : (s.bay b).phase ≠ some .settle := fun h => hx (by rw [hphase (by rw [h]; rfl)]; decide)
    simp [Bay.statesEntered, hs, hsettle] at hst
  · rw [Bay.statesEntered_of_ne hs] at hst
    exact BayState.between_drift _ hx _ hd hs _ hst

theorem kindEnding_of_moving (p : Port) (k : RequestKind) {st : BayState} (h : st ∈ [.unloading, .retracting]) :
    kindEnding p k (.entered st) = none := by
  have hwait : ∀ level, ∀ st ∈ [BayState.unloading, .retracting], waitEnding level (.entered st) = none := by
    intro level
    cases level <;> decide
  have hrelease : ∀ p, ∀ st ∈ [BayState.unloading, .retracting], releaseEnding p (.entered st) = none := by
    intro p
    cases p <;> decide
  cases k with
  | wait b level => exact hwait level st h
  | release b => exact hrelease p st h
  | write => rfl
  | reload => rfl

theorem BayState.between_of_parted : ∀ st ∈ [BayState.loading, .ready], ∀ st' ∈ [BayState.unloading, .retracting],
    st' ≠ st ∧ st.between st' = [st'] := by
  decide

/-- A bay whose heads leave the platters by way of no SPUN ends no request. -/
theorem Request.endedBy_of_moving (hb : r.kind.bay? = some b) (hx : (s.bay b).state ∈ [.loading, .ready])
    (ho : (t.bay b).ejectorOpen = (s.bay b).ejectorOpen) (ht : (t.bay b).state ∈ [.unloading, .retracting]) :
    r.endedBy (fun _ => false) s t = none := by
  obtain ⟨hne, hbetween⟩ := BayState.between_of_parted _ hx _ ht
  refine Request.endedBy_eq_none (p := .a) hb ho fun st hst => ?_
  rw [Bay.statesEntered_of_ne hne, hbetween, List.mem_singleton] at hst
  exact kindEnding_of_moving .a _ (hst ▸ ht)

/-- What a bay that has parted does further ends no further request. -/
theorem Request.endedBy_parted {u : State} (hb : r.kind.bay? = some b) (hx : (s.bay b).state ∈ [.loading, .ready])
    (hu : (s.bay b).Parted (u.bay b)) (ho : (t.bay b).ejectorOpen = (u.bay b).ejectorOpen)
    (hs : (t.bay b).state = (u.bay b).state ∨ (u.bay b).state = .unloading ∧ (t.bay b).state = .retracting) :
    r.endedBy (fun _ => false) s t = r.endedBy (fun _ => false) s u := by
  have ho' := ho.trans hu.ejector
  obtain hs | ⟨hsu, hst⟩ := hs
  · have hne : (u.bay b).state ≠ (s.bay b).state := fun h => by
      have hmem := hu.leaves hx
      rw [h] at hmem
      revert hx hmem
      cases (s.bay b).state <;> decide
    have hentered : (s.bay b).statesEntered (t.bay b) = (s.bay b).statesEntered (u.bay b) := by
      rw [Bay.statesEntered_of_ne hne, Bay.statesEntered_of_ne (hs ▸ hne), hs]
    cases hk : r.kind with
    | wait c level =>
      rw [hk] at hb
      cases hb
      rw [Request.endedBy_wait _ _ _ hk, Request.endedBy_wait _ _ _ hk, hentered, ho, hs]
    | release c =>
      rw [hk] at hb
      cases hb
      rw [Request.endedBy_release _ _ _ hk, Request.endedBy_release _ _ _ hk, hentered, hs]
    | write => rw [Request.endedBy_store _ _ _ (.inl hk), Request.endedBy_store _ _ _ (.inl hk)]
    | reload => rw [Request.endedBy_store _ _ _ (.inr hk), Request.endedBy_store _ _ _ (.inr hk)]
  · rw [Request.endedBy_of_moving hb hx ho' (by rw [hst]; decide),
      Request.endedBy_of_moving hb hx hu.ejector (by rw [hsu]; decide)]

end

end Sys2Proof.Machine
end

section
/-!
A run of sensor samples, character by character: where the requests of a port stand (R117, R149, R163, R178).
-/

namespace Sys2Proof.Machine

/-! ### A motion record installed -/

/-- The facts of an event of motion changes (R27). -/
def Event.Plain (e : Event) : Prop := ∀ f ∈ e.facts, f.2.entered? = none → f.2 = .leftEmpty

section
variable (e : Event) (m : MotionRecord) (p : Port)

theorem Event.setMotion_bay (b : BayNo) :
    (e.setMotion m).st.bay b =
      if m.state = e.st.motion.state then e.st.bay b
      else (Work.motionChanged ⟨e.st.now, m.state⟩ ⟨e.st.bay b, []⟩).bay := by
  rw [Event.setMotion_st]
  exact State.setMotion_bay e.st m b

theorem Event.setMotion_motion : (e.setMotion m).st.motion = m := by
  rw [Event.setMotion_st]
  exact State.setMotion_motion e.st m

theorem Event.setMotion_now : (e.setMotion m).st.now = e.st.now := by
  by_cases h : m.state = e.st.motion.state
  · rw [Event.setMotion_same h]
  · rw [Event.setMotion_changed h, Event.onBays_now]
    rfl

theorem Event.setMotion_slots :
    ((e.setMotion m).st.port p).outstanding = (e.st.port p).outstanding ∧
      ((e.setMotion m).st.port p).completions = (e.st.port p).completions := by
  by_cases h : m.state = e.st.motion.state
  · rw [Event.setMotion_same h]
    cases p <;> exact ⟨rfl, rfl⟩
  · rw [Event.setMotion_changed h]
    have hslots := Event.onBays_slots Work.motionChanged bayNos ⟨e.st.motionHanded m, e.facts⟩ p
    cases p <;> exact hslots

/-- How a motion change adds to the requests that its event ends. -/
theorem Event.setMotion_ending {r : Request} {b : BayNo} (hb : r.kind.bay? = some b) :
    eventEnding p (e.setMotion m).facts r =
      if m.state = e.st.motion.state then eventEnding p e.facts r
      else (eventEnding p e.facts r).or
        ((Work.motionChanged ⟨e.st.now, m.state⟩ ⟨e.st.bay b, []⟩).facts.findSome? (kindEnding p r.kind)) := by
  split
  next h => rw [Event.setMotion_same h]
  next h =>
    rw [Event.setMotion_changed h, Event.onBays_ending Work.motionChanged bayNos _ (by decide) p hb, if_pos (mem_bayNos b)]
    exact congrArg _ rfl

variable {e m}

theorem Event.Plain.setMotion (h : e.Plain) (hb : ∀ b, (e.st.bay b).Stands e.st.motion.state) : (e.setMotion m).Plain := by
  by_cases hm : m.state = e.st.motion.state
  · rw [Event.setMotion_same hm]
    exact h
  · rw [Event.setMotion_changed hm]
    intro f hf
    rw [Event.onBays_facts _ _ _ (by decide), List.mem_append, List.mem_flatMap] at hf
    obtain hf | ⟨b, -, hf⟩ := hf
    · exact h f hf
    · obtain ⟨g, hg, rfl⟩ := List.mem_map.mp hf
      exact Work.motionChanged_plain (hb b) g hg

/-- An ending by a plain fact shows the state entered. -/
theorem Event.Plain.entered (h : e.Plain) {r : Request} {x : Ending} (hx : eventEnding p e.facts r = some x) :
    x.entered.isSome = true := by
  obtain ⟨b, f, hf, hb, hx⟩ := exists_fact_of_eventEnding hx
  rw [factEnding_eq p hb] at hx
  cases f with
  | entered st =>
    cases hk : r.kind with
    | wait c level =>
      rw [hk] at hx
      cases level <;> cases st <;> cases hx <;> rfl
    | release c =>
      rw [hk] at hx
      cases st <;> cases hx <;> rfl
    | write => rw [hk] at hx; cases hx
    | reload => rw [hk] at hx; cases hx
  | leftEmpty =>
    rw [kindEnding_leftEmpty] at hx
    cases hx
  | ejectorSet o => exact absurd (h _ hf rfl) (by simp)
  | demandRaised q => exact absurd (h _ hf rfl) (by simp)

end

theorem State.record_of_entered {s t : State} (hn : t.now = s.now) (r : Request) {x : Ending} (hx : x.entered.isSome = true) :
    t.record r x = s.record r x := by
  obtain ⟨st, hst⟩ := Option.isSome_iff_exists.mp hx
  simp only [State.record, hn, hst, Option.getD_some]

/-- An event that goes on without ending more of a port's requests leaves its slots as they were to be. -/
theorem Event.finish_slots_congr {e e' : Event} {p : Port} (hn : e'.st.now = e.st.now)
    (hs : (e'.st.port p).outstanding = (e.st.port p).outstanding ∧
      (e'.st.port p).completions = (e.st.port p).completions)
    (hplain : e.Plain) (h : ∀ r ∈ (e.st.port p).outstanding, eventEnding p e'.facts r = eventEnding p e.facts r) :
    (e'.finish.port p).outstanding = (e.finish.port p).outstanding ∧
      (e'.finish.port p).completions = (e.finish.port p).completions := by
  obtain ⟨ho, hc⟩ := e.finish_slots p
  obtain ⟨ho', hc'⟩ := e'.finish_slots p
  refine ⟨?_, ?_⟩
  · rw [ho, ho', hs.1]
    exact List.filter_congr fun r hr => by rw [h r hr]
  · rw [hc, hc', hs.1, hs.2]
    refine congrArg (_ ++ ·) (List.filterMap_congr fun r hr => ?_)
    rw [h r hr]
    cases hx : eventEnding p e.facts r with
    | none => rfl
    | some x => exact congrArg some (State.record_of_entered hn r (hplain.entered p hx))

theorem State.event_finish (s : State) : s.event.finish = s := by
  unfold Event.finish
  rw [State.endRequests_none .a (eventEnding .a s.event.facts) s.event.st fun _ _ => rfl]
  exact State.endRequests_none .b _ s fun _ _ => rfl

/-! ### Before and after the motion leaves the calm states -/

/-- Nothing of a port has ended. -/
structure Event.Waits (s : State) (p : Port) (e : Event) : Prop where
  outstanding : (e.st.port p).outstanding = (s.port p).outstanding
  completions : (e.st.port p).completions = (s.port p).completions
  ends : ∀ r ∈ (s.port p).outstanding, eventEnding p e.facts r = none
  bays : ∀ b, (s.bay b).Waits (e.st.bay b)

/-- The motion has left the calm states at this moment, and what of a port ends has ended. -/
structure Event.Parted (s : State) (p : Port) (e : Event) : Prop where
  fresh : e.st.motion.Fresh (millis s.now)
  ended : RequestsEnd p (Request.endedBy (fun _ => false) s e.st) s e.finish [] []
  bays : ∀ b, (s.bay b).Parted (e.st.bay b)

/-- A port in the middle of a run of samples. -/
structure Event.Heard (s : State) (p : Port) (e : Event) : Prop where
  now : e.st.now = s.now
  settings : e.st.caseSettings = s.caseSettings
  plain : e.Plain
  stage : e.Waits s p ∨ e.Parted s p

section
variable {s : State} {p : Port} {e e' : Event} {m : MotionRecord}

/-- An event whose bays, slots and facts stand. -/
theorem Event.Heard.congr (h : e.Heard s p) (hn : e'.st.now = e.st.now) (hc : e'.st.caseSettings = e.st.caseSettings)
    (hm : e.st.motion.Fresh (millis s.now) → e'.st.motion.Fresh (millis s.now)) (hf : e'.facts = e.facts)
    (hb : ∀ b, e'.st.bay b = e.st.bay b)
    (hs : (e'.st.port p).outstanding = (e.st.port p).outstanding ∧
      (e'.st.port p).completions = (e.st.port p).completions) : e'.Heard s p := by
  refine ⟨hn.trans h.now, hc.trans h.settings, by rw [Event.Plain, hf]; exact h.plain, h.stage.imp (fun w => ?_) fun w => ?_⟩
  · exact ⟨hs.1.trans w.outstanding, hs.2.trans w.completions, fun r hr => hf ▸ w.ends r hr, fun b => hb b ▸ w.bays b⟩
  · refine ⟨hm w.fresh, ?_, fun b => hb b ▸ w.bays b⟩
    exact requestsEnd_congr ⟨rfl, rfl⟩ (Event.finish_slots_congr hn hs h.plain fun r _ => by rw [hf])
      (by rw [Event.finish_now, Event.finish_now, hn])
      (fun r _ => Request.endedBy_congr fun b _ => ⟨rfl, by rw [hb b]⟩) w.ended

/-- A motion change while nothing has parted ends nothing where no heads must leave the platters. -/
theorem Event.Waits.setMotion (hs : s.Awaits p) (h : e.Waits s p) (hb : ∀ b, (e.st.bay b).Stands e.st.motion.state)
    (hm : m.state ≠ e.st.motion.state)
    (hc : ∀ b, (s.bay b).state ∈ [.loading, .ready] → m.state.calm = true) : (e.setMotion m).Waits s p := by
  obtain ⟨ho, hd⟩ := e.setMotion_slots m p
  refine ⟨ho.trans h.outstanding, hd.trans h.completions, fun r hr => ?_, fun b => ?_⟩
  · cases hk : r.kind.bay? with
    | none => exact eventEnding_eq_none fun b hb' => by rw [hk] at hb'; cases hb'
    | some b =>
      rw [e.setMotion_ending m p hk, if_neg hm, h.ends r hr, Option.none_or]
      by_cases hx : (s.bay b).state ∈ [.loading, .ready]
      · rw [Work.motionChanged_of_calm (((h.bays b).holds hx).1 ▸ hx) (hc b hx)]
        rfl
      · exact Work.motionChanged_drift_ends (hb b) hx ((h.bays b).drifts hx)
          ((s.requestStands_eq p hk).symm.trans (hs.stands r hr))
  · rw [e.setMotion_bay, if_neg hm]
    exact (h.bays b).motionChanged (hb b) (hc b)

/-- The motion change that leaves the calm states ends what the bays that it takes off the platters end. -/
theorem Event.Waits.part (hs : s.Awaits p) (h : e.Waits s p) (hb : ∀ b, (e.st.bay b).Stands e.st.motion.state)
    (hm : m.state ≠ e.st.motion.state) (hfresh : m.Fresh (millis s.now)) : (e.setMotion m).Parted s p := by
  obtain ⟨ho, hd⟩ := e.setMotion_slots m p
  have hbays : ∀ b, (s.bay b).Parted ((e.setMotion m).st.bay b) := fun b => by
    rw [e.setMotion_bay, if_neg hm]
    exact (h.bays b).parted (hb b) hfresh.state_mem
  refine ⟨by rw [e.setMotion_motion]; exact hfresh, ?_, hbays⟩
  refine (e.setMotion m).finish_requestsEnd s p _ ⟨ho.trans h.outstanding, hd.trans h.completions⟩ fun r hr => ?_
  cases hk : r.kind.bay? with
  | none =>
    have hno : ∀ b, r.kind.bay? ≠ some b := fun b => by rw [hk]; nofun
    exact .inl ⟨eventEnding_eq_none fun b hb' => absurd hb' (hno b), Request.endedBy_of_still fun b hb' => absurd hb' (hno b)⟩
  | some b =>
    have hends := e.setMotion_ending m p hk
    rw [if_neg hm, h.ends r hr, Option.none_or] at hends
    by_cases hx : (s.bay b).state ∈ [.loading, .ready]
    · refine .inr ⟨b, rfl, ?_⟩
      obtain ⟨hst, hphase⟩ := (h.bays b).holds hx
      have hwent := (Work.motionChanged_responds (c := ⟨e.st.now, m.state⟩) (hb b).allowed).went
      have hbay := e.setMotion_bay m b
      rw [if_neg hm] at hbay
      rw [← hbay] at hwent
      rw [hends, ← eventEnding_shown (s := s) (head := []) (.none (hbays b).ejector rfl)
        (Work.motionChanged_plain (c := ⟨e.st.now, m.state⟩) (hb b)) ?_ (hs.loading b) hk (hs.stands r hr),
        eventEnding_bayFacts, if_pos hk]
      · rfl
      · unfold Bay.Went at hwent ⊢
        rwa [← hst, ← hphase]
    · refine .inl ⟨?_, Request.endedBy_drift hk (hs.stands r hr) (hs.loading b) hx ((hbays b).drifts hx) (hbays b).ejector⟩
      rw [hends]
      exact Work.motionChanged_drift_ends (hb b) hx ((h.bays b).drifts hx)
        ((s.requestStands_eq p hk).symm.trans (hs.stands r hr))

/-- Motion changes after it, at the same moment, end nothing more. -/
theorem Event.Parted.setMotion (hs : s.Awaits p) (h : e.Parted s p) (hplain : e.Plain)
    (hb : ∀ b, (e.st.bay b).Stands e.st.motion.state) (hm : m.state ≠ e.st.motion.state)
    (hfresh : m.Fresh (millis s.now)) : (e.setMotion m).Parted s p := by
  have hbay : ∀ b, (e.setMotion m).st.bay b = (Work.motionChanged ⟨e.st.now, m.state⟩ ⟨e.st.bay b, []⟩).bay := fun b => by
    rw [e.setMotion_bay, if_neg hm]
  have hbays : ∀ b, (s.bay b).Parted ((e.setMotion m).st.bay b) := fun b => by
    rw [hbay]
    exact (h.bays b).motionChanged (hb b) hfresh.state_mem
  refine ⟨by rw [e.setMotion_motion]; exact hfresh, ?_, hbays⟩
  obtain ⟨hleft, -⟩ := h.ended
  have hslots := Event.finish_slots_congr (e.setMotion_now m) (e.setMotion_slots m p) hplain fun r hr => ?_
  · refine requestsEnd_congr ⟨rfl, rfl⟩ hslots ?_ (fun r hr => ?_) h.ended
    · rw [Event.finish_now, Event.finish_now, e.setMotion_now]
    · cases hk : r.kind.bay? with
      | none =>
        have hno : ∀ b, r.kind.bay? ≠ some b := fun b => by rw [hk]; nofun
        exact Request.endedBy_congr fun b hb' => absurd hb' (hno b)
      | some b =>
        by_cases hx : (s.bay b).state ∈ [.loading, .ready]
        · refine Request.endedBy_parted hk hx (h.bays b) ?_ ?_ <;> rw [hbay]
          · exact Work.motionChanged_ejectorOpen _ _
          · exact (Work.motionChanged_parked (hb b) ((h.bays b).leaves hx) hfresh.state_mem).imp And.left
              fun ⟨hst, hst', _⟩ => ⟨hst, hst'⟩
        · rw [Request.endedBy_drift hk (hs.stands r hr) (hs.loading b) hx ((hbays b).drifts hx) (hbays b).ejector,
            Request.endedBy_drift hk (hs.stands r hr) (hs.loading b) hx ((h.bays b).drifts hx) (h.bays b).ejector]
  · cases hk : r.kind.bay? with
    | none =>
      have hno : ∀ b, r.kind.bay? ≠ some b := fun b => by rw [hk]; nofun
      rw [eventEnding_eq_none fun b hb' => absurd hb' (hno b), eventEnding_eq_none fun b hb' => absurd hb' (hno b)]
    | some b =>
      rw [e.setMotion_ending m p hk, if_neg hm]
      cases hx : eventEnding p e.facts r with
      | some x => rfl
      | none =>
        rw [Option.none_or]
        have hmem : r ∈ (s.port p).outstanding := by
          have hmem : r ∈ (e.finish.port p).outstanding := by
            rw [(e.finish_slots p).1, List.mem_filter]
            exact ⟨hr, by rw [hx]; rfl⟩
          rw [hleft, List.append_nil, List.mem_filter] at hmem
          exact hmem.1
        by_cases hst : (s.bay b).state ∈ [.loading, .ready]
        · refine findSome_kindEnding_eq_none (Work.motionChanged_plain (hb b)) fun st hin => kindEnding_of_moving p _ ?_
          obtain ⟨-, hnil⟩ | ⟨-, -, hl⟩ := Work.motionChanged_parked (c := ⟨e.st.now, m.state⟩) (hb b)
            ((h.bays b).leaves hst) hfresh.state_mem
          · rw [hnil] at hin; cases hin
          · rw [hl] at hin
            rw [List.mem_singleton.mp hin]
            decide
        · exact Work.motionChanged_drift_ends (hb b) hst ((h.bays b).drifts hst)
            ((s.requestStands_eq p hk).symm.trans (hs.stands r hmem))

/-! ### A run of samples -/

/-- A motion record that follows is heard. -/
theorem Event.Heard.setMotion (hs : s.Awaits p) (hcs : s.caseSettings.Dwells) (h : e.Heard s p)
    (hb : ∀ b, (e.st.bay b).Stands e.st.motion.state)
    (hm : e.st.motion.Follows e.st.caseSettings (millis e.st.now) m) : (e.setMotion m).Heard s p := by
  rw [h.settings, h.now] at hm
  by_cases hsame : m.state = e.st.motion.state
  · refine h.congr (e.setMotion_now m) ?_ (fun hf => ?_) ?_ (fun b => ?_) (e.setMotion_slots m p)
    · exact congrArg (fun w => w.2.values) (e.setMotion_working m)
    · rw [e.setMotion_motion]
      exact hm.fresh hcs hf
    · rw [Event.setMotion_same hsame]
    · rw [e.setMotion_bay, if_pos hsame]
  · refine ⟨(e.setMotion_now m).trans h.now, ?_, h.plain.setMotion hb, ?_⟩
    · exact (congrArg (fun w => w.2.values) (e.setMotion_working m)).trans h.settings
    obtain hw | hw := h.stage
    · by_cases hc : ∀ b, (s.bay b).state ∈ [.loading, .ready] → m.state.calm = true
      · exact .inl (hw.setMotion hs hb hsame hc)
      · simp only [not_forall, Bool.not_eq_true] at hc
        obtain ⟨b, hx, hc⟩ := hc
        have hcalm : e.st.motion.state.calm = true := by
          have hst := ((hw.bays b).holds hx).1 ▸ hx
          have hm := (Bay.onPlatters_of_allowed (hb b).allowed (by simpa using hst)).2
          simpa [Motion.calm] using hm
        exact .inr (hw.part hs hb hsame (hm.fresh_of_calm hcalm hc))
    · exact .inr (hw.setMotion hs h.plain hb hsame (hm.fresh hcs hw.fresh))

/-- Every bay stands soundly under the motion state (R19, R26, R71, R82). -/
def State.Stands (s : State) : Prop :=
  ∀ b, (s.bay b).Stands s.motion.state ∧ (s.bay b).detailsFollowState = true

/-- The bays stand soundly throughout a run of samples (R26, R71, R82). -/
theorem State.Listens.stands {u : State} (hl : s.Listens u) (he : u.event.Hears e)
    (hb : s.Stands) (b : BayNo) : (e.st.bay b).Stands e.st.motion.state := by
  have hmoves : s.Moves .partReset e.st := ((State.Moves.start.listens hl).hears he)
  refine (hmoves.bays (P := fun m x => x.Stands m ∧ x.detailsFollowState = true) (fun c x y hx ht => ?_)
    (fun _ _ _ _ hbrings => hbrings.elim) (fun c m x hx => ?_) hb b).1
  · obtain ⟨⟨hallowed, hlines, hmonitor⟩, hdetails⟩ := hx
    obtain ⟨hdetails, hlines⟩ := ht.shaped ⟨hdetails, hlines⟩
    exact ⟨⟨ht.stateAllowed hallowed, hlines, ht.monitorHolds hmonitor⟩, hdetails⟩
  · obtain ⟨⟨hallowed, hlines, hmonitor⟩, hdetails⟩ := hx
    obtain ⟨hdetails, hlines⟩ := Work.shaped_motionChanged c (w := ⟨x, []⟩) ⟨hdetails, hlines⟩
    exact ⟨⟨Work.allowed_motionChanged hallowed, hlines, Work.motionChanged_monitorHolds c hmonitor⟩, hdetails⟩

theorem Event.Heard.hears (hs : s.Awaits p) (hcs : s.caseSettings.Dwells) (hb : s.Stands)
    {u : State} (hl : s.Listens u) (h : u.event.Heard s p) (he : u.event.Hears e) : e.Heard s p := by
  induction he with
  | stay => exact h
  | receiver f _ ih =>
    refine ih.congr rfl rfl (fun hf => hf) rfl (fun _ => rfl) ?_
    cases p <;> exact ⟨rfl, rfl⟩
  | motion he hm ih => exact ih.setMotion hs hcs (hl.stands he hb) hm

theorem Event.Heard.finish (h : e.Heard s p) : e.finish.event.Heard s p := by
  refine ⟨e.finish_now.trans h.now, (congrArg (fun w => w.2.values) e.finish_working).trans h.settings, nofun,
    h.stage.imp (fun w => ?_) fun w => ?_⟩
  · obtain ⟨ho, hc⟩ := e.finish_slots p
    refine ⟨?_, ?_, fun _ _ => rfl, fun b => (w.bays b).congr (e.finish_outline b)⟩
    · rw [State.event_st, ho, w.outstanding]
      exact List.filter_eq_self.mpr fun r hr => by rw [w.ends r hr]; rfl
    · rw [State.event_st, hc, w.outstanding, w.completions, List.filterMap_eq_nil_iff.mpr, List.append_nil]
      exact fun r hr => by rw [w.ends r hr]; rfl
  · have hframe := e.finish_frame
    simp only [Prod.mk.injEq] at hframe
    obtain ⟨-, -, -, hmotion, -⟩ := hframe
    refine ⟨?_, ?_, fun b => (w.bays b).congr (e.finish_outline b)⟩
    · rw [State.event_st, hmotion]
      exact w.fresh
    · rw [State.event_finish]
      exact requestsEnd_congr ⟨rfl, rfl⟩ ⟨rfl, rfl⟩ rfl
        (fun r _ => Request.endedBy_congr fun b _ => ⟨rfl, e.finish_outline b⟩) w.ended

theorem State.Listens.heard (hs : s.Awaits p) (hcs : s.caseSettings.Dwells) (hb : s.Stands)
    {t : State} (h : s.Listens t) : t.event.Heard s p := by
  induction h with
  | stay => exact ⟨rfl, rfl, nofun, .inl ⟨rfl, rfl, fun _ _ => rfl, fun b => .refl _⟩⟩
  | receiver f _ ih =>
    refine ih.congr rfl rfl (fun hf => hf) rfl (fun _ => rfl) ?_
    cases p <;> exact ⟨rfl, rfl⟩
  | hears hl he ih => exact (ih.hears hs hcs hb hl he).finish

/-- A run of sensor samples ends the requests of a port as their record says (R163, R178 to R180). -/
theorem State.Listens.requestsEnd (hs : s.Awaits p) (hcs : s.caseSettings.Dwells)
    (hb : s.Stands) {t : State} (h : s.Listens t) :
    RequestsEnd p (Request.endedBy (fun _ => false) s t) s t [] [] := by
  obtain hw | hw := (h.heard hs hcs hb).stage
  · refine requestsEnd_of_none hw.outstanding hw.completions fun r hr => ?_
    cases hk : r.kind.bay? with
    | none =>
      have hno : ∀ b, r.kind.bay? ≠ some b := fun b => by rw [hk]; nofun
      exact Request.endedBy_of_still fun b hb' => absurd hb' (hno b)
    | some b =>
      have hbay := hw.bays b
      by_cases hx : (s.bay b).state ∈ [.loading, .ready]
      · refine Request.endedBy_of_still fun c hc => ⟨?_, rfl⟩
        obtain rfl := Option.some.inj (hk.symm.trans hc)
        obtain ⟨hst, hphase⟩ := hbay.holds hx
        exact Bay.outline_eq_iff.mpr ⟨hst, hphase, hbay.ejector⟩
      · exact Request.endedBy_drift hk (hs.stands r hr) (hs.loading b) hx (hbay.drifts hx) hbay.ejector
  · have h := hw.ended
    rwa [State.event_finish] at h

end

end Sys2Proof.Machine
end

section
/-!
Every event ends the requests of a port as its record says (R11 to R13, R159, R163, R178 to R180).
-/

namespace Sys2Proof.Machine

theorem Port.eq_peer_of_ne {p q : Port} (h : p ≠ q) : p = q.peer := by
  cases p <;> cases q <;> first | rfl | exact absurd rfl h

section
variable {i : Instr} {p q : Port} {s t : State}

/-! ### What one port does leaves the other's slots -/

theorem State.accept_port_of_ne (hne : p ≠ q) (u : State) (tag : Byte) (kind : RequestKind) (due : Option Micros) :
    (u.accept q tag kind due).port p = u.port p := by
  rw [Port.eq_peer_of_ne hne]
  exact State.port_setPort_peer u q _

theorem State.endRequests_port_of_ne (hne : p ≠ q) (u : State) (ends : Request → Option Ending) :
    (u.endRequests q ends).port p = u.port p := by
  rw [Port.eq_peer_of_ne hne]
  exact u.endRequests_peer q ends

theorem State.endAccepted_port_of_ne (hne : p ≠ q) (u : State) (tag : Byte) (e : Option Ending) :
    (u.endAccepted q tag e).port p = u.port p := by
  cases e with
  | none => rfl
  | some x => exact State.endRequests_port_of_ne hne u _

theorem ne_of_actsOnSlots (hq : actsOnSlots q i = true) (hp : actsOnSlots p i = false) : p ≠ q := by
  rintro rfl
  rw [hq] at hp
  cases hp

/-! ### SET DEMAND -/

theorem raisesDemand_eq_none (h : ∀ dt q mask level, i ≠ .setDemand dt q mask level) : raisesDemand p i = fun _ => false := by
  cases i with
  | setDemand dt q mask level => exact absurd rfl (h dt q mask level)
  | _ => rfl

/-- SET DEMAND ends the requests of its bays, which there are none of while the part starts (R6, R170). -/
theorem exec_setDemand_requestsEnd {dt : Micros} {mask level : Byte} (hs : s.sound)
    (h : exec (.setDemand dt q mask level) s = .next t) :
    RequestsEnd p (Request.endedBy (raisesDemand p (.setDemand dt q mask level)) s t) s t [] [] := by
  have hadvance := s.alike_advance dt
  by_cases hstart : s.store.engine = .startup
  · have hnone : (s.port p).outstanding = [] := by
      obtain ⟨-, -, -, -, ⟨-, -, -, -, hload, -⟩, -⟩ := hs
      obtain ⟨-, -, -, -, -, hA, hB⟩ := hload hstart
      cases p
      exacts [hA, hB]
    have ht : (s.advance dt).reply q 0 .starting = t :=
      (State.takeCommand_starting q _ (s.advance dt) hstart).symm.trans (Host.Outcome.next.inj h)
    have halike := hadvance.trans (State.alike_reply (s.advance dt) q 0 .starting)
    rw [ht] at halike
    refine requestsEnd_of_none (halike.outstanding p) (halike.completions p) fun r hr => ?_
    rw [hnone] at hr
    cases hr
  · have hexec := exec_setDemand_started dt q hstart mask level
    obtain rfl := Host.Outcome.next.inj (h.symm.trans hexec)
    have hreply := State.alike_reply (((s.advance dt).demandEvent q mask (levelOf level)).finish) q 2 .accepted
    have hend := ((hs.awaits p).congr hadvance.toBeside (hadvance.outstanding p)).requestsEnd_writeDemand q mask level
      (raised := raisesDemand p (.setDemand dt q mask level)) fun b => by simp [raisesDemand]
    exact requestsEnd_transfer hadvance.bay (fun b => congrArg Bay.outline (hreply.bay b))
      ⟨hadvance.outstanding p, hadvance.completions p⟩ ⟨hreply.outstanding p, hreply.completions p⟩ (State.reply_now _ _ _ _) hend

/-! ### Every event -/

/-- Responses of bays in a state that stands beside the part's, which ends alike with what follows. -/
theorem State.Awaits.requestsEnd_responds {u v : State} (hs : s.Awaits p) (hu : s.Beside u)
    (hslots : (u.port p).outstanding = (s.port p).outstanding ∧ (u.port p).completions = (s.port p).completions)
    (a : Act) (bs : List BayNo) (hn : bs.Nodup) (hfit : ∀ b ∈ bs, a.Fits u b)
    (hdemand : ∀ q level, a ≠ .writeDemand q level) (hv : v = (u.event.onBays bs a.run).finish) (ht : ∀ b, (t.bay b).outline = (v.bay b).outline)
    (htslots : (t.port p).outstanding = (v.port p).outstanding ∧ (t.port p).completions = (v.port p).completions)
    (hnow : t.now = v.now) : RequestsEnd p (Request.endedBy (fun _ => false) s t) s t [] [] := by
  subst hv
  exact requestsEnd_transfer hu.bay ht hslots htslots hnow
    ((hs.congr hu hslots.1).requestsEnd_onBays a bs hn hfit hdemand)

/-- An event other than SET DEMAND ends the requests of a port whose slots it does not act on as their bays' ways say. -/
theorem exec_requestsEnd (hs : s.sound) (h : exec i s = .next t) (hp : actsOnSlots p i = false)
    (hi : ∀ dt q mask level, i ≠ .setDemand dt q mask level) :
    RequestsEnd p (Request.endedBy (fun _ => false) s t) s t [] [] := by
  have hawaits := hs.awaits p
  cases exec_taken h with
  | beside hb ho hc => exact requestsEnd_of_still (fun b => by rw [hb.bay]) (ho p) (hc p hp)
  | @touch u _ b x hu hx hf ht =>
    have hout : x.outline = (u.bay b).outline := by
      simp only [Prod.mk.injEq] at hf
      obtain ⟨-, -, ho, hphase⟩ := hf
      exact Bay.outline_eq_iff.mpr ⟨hx.state, hphase, ho⟩
    refine requestsEnd_of_still (fun c => ?_) ((ht.outstanding p).trans ?_) ((ht.completions p).trans ?_)
    · rw [ht.bay, State.bay_setBay_eq, ← hu.bay c]
      split
      next hc => rw [hc]; exact hout
      next => rfl
    · rw [← hu.outstanding p]
      cases p <;> rfl
    · rw [← hu.completions p]
      cases p <;> rfl
  | @act u _ b a hu _ hf _ hne ht hnow =>
    refine hawaits.requestsEnd_responds (u := u) hu.toBeside ⟨hu.outstanding p, hu.completions p⟩ a [b] (by simp)
      (fun c hc => ?_) hne (v := u.bayEvent b a.run) rfl (fun c => by rw [ht.bay]) ⟨ht.outstanding p, ht.completions p⟩
      (hnow.trans (State.bayEvent_now b a.run u).symm)
    rw [List.mem_singleton.mp hc]
    exact hf
  | @demand u _ dt q mask level _ hi' => exact absurd hi' (hi dt q mask level)
  | @listens u _ hu hstore hmotion hl =>
    obtain ⟨⟨hrange, -⟩, ⟨-, hallowed⟩, -, -, -, hbays⟩ := hs
    have hdwells : u.caseSettings.Dwells := by
      rw [State.caseSettings, hstore]
      simp only [Store.inRange, Bool.and_eq_true] at hrange
      obtain ⟨⟨-, hcase⟩, -⟩ := hrange
      exact CaseSettings.dwells_of_inRange hcase
    have hstands : u.Stands := fun b => by
      obtain ⟨hdetails, hlines, -, hmonitor, -⟩ := hbays b
      rw [hu.bay, hu.motion]
      exact ⟨⟨hallowed b, hlines, hmonitor⟩, hdetails⟩
    exact requestsEnd_transfer hu.bay (fun _ => rfl) ⟨hu.outstanding p, hu.completions p⟩ ⟨rfl, rfl⟩ rfl
      (hl.requestsEnd (hawaits.congr hu.toBeside (hu.outstanding p)) hdwells hstands)
  | @accept u _ q tag kind due e hu hq _ _ _ ht =>
    have hne := ne_of_actsOnSlots hq hp
    have hport : ((u.accept q tag kind due).endAccepted q tag e).port p = u.port p := by
      rw [State.endAccepted_port_of_ne hne, State.accept_port_of_ne hne]
    refine requestsEnd_of_still (fun b => ?_) ((ht.outstanding p).trans ?_) ((ht.completions p).trans ?_)
    · rw [ht.bay, Bay.outline_of_sansFlags (State.endAccepted_sansFlags q tag e _ b), (u.beside_accept q tag kind due).bay,
        hu.bay]
    · rw [hport, hu.outstanding]
    · rw [hport, hu.completions]
  | @ends u _ q f hu hq _ ht =>
    have hne := ne_of_actsOnSlots hq hp
    have hport := State.endRequests_port_of_ne hne u f
    refine requestsEnd_of_still (fun b => ?_) ((ht.outstanding p).trans ?_) ((ht.completions p).trans ?_)
    · rw [ht.bay, Bay.outline_of_sansFlags (u.endRequests_sansFlags q f b), hu.bay]
    · rw [hport, hu.outstanding]
    · rw [hport, hu.completions]
  | @release u v _ dt q tag bay timeout b hu hi' hb _ hv ht hnow =>
    have hne : p ≠ q := ne_of_actsOnSlots (i := i) (by rw [hi']; simp [actsOnSlots]) hp
    have hbeside := hu.toBeside.trans (u.beside_accept q tag (.release b) (timeoutDue u.now timeout))
    have haccept := State.accept_port_of_ne hne u tag (.release b) (timeoutDue u.now timeout)
    have hend := State.endAccepted_port_of_ne hne v tag (v.orExpireAtOnce b timeout (v.releaseAtAcceptance b))
    refine hawaits.requestsEnd_responds (v := v) hbeside ?_ (.askRelease q) [b] (by simp) (fun _ _ => trivial) nofun
      hv (fun c => ?_) ?_ ?_
    · rw [haccept]
      exact ⟨hu.outstanding p, hu.completions p⟩
    · rw [ht.bay, Bay.outline_of_sansFlags (State.endAccepted_sansFlags q tag _ v c)]
    · rw [ht.outstanding, ht.completions, hend]
      exact ⟨rfl, rfl⟩
    · rw [hnow, hv, State.bayEvent_now, State.accept_now]
  | @restart u _ dt q hu hi' ht hnow =>
    have hne : p ≠ q := ne_of_actsOnSlots (i := i) (by rw [hi']; simp [actsOnSlots]) hp
    have hport : (u.setPort q (u.port q).restart).port p = u.port p := by
      rw [Port.eq_peer_of_ne hne]
      exact State.port_setPort_peer u q _
    refine hawaits.requestsEnd_responds (hu.toBeside.trans (u.beside_setPort q _)) ?_ (.restartFlag q) bayNos (by decide)
      (fun _ _ => trivial) nofun rfl (fun c => by rw [ht.bay]; rfl) ⟨ht.outstanding p, ht.completions p⟩ ?_
    · rw [hport]
      exact ⟨hu.outstanding p, hu.completions p⟩
    · rw [hnow, Event.finish_now, Event.onBays_now, State.event_st, State.setPort_now]
  | reset hi' =>
    rw [hi'] at hp
    cases hp

end

end Sys2Proof.Machine

namespace Sys2Proof
open Machine

/-- Settles O8: an event is told by what it does to the bays and the slots. Each bay goes one of its ways, and hands on
what ends its requests; over a run of sensor samples they end together, where the motion leaves the calm states. -/
theorem stepKeepsReleases : Obligations.StepKeepsReleases := by
  refine ⟨fun s t hs hr h => ?_, fun i s t p hs h hp => ?_⟩
  · obtain rfl | ⟨i, s', hs', hexec⟩ := step_cases h
    · exact hr
    · exact exec_keeps_releasesHold hexec (hs'.toBeside.statesAllowed hs) (hs'.releasesHold hr)
  · by_cases hi : ∃ dt q mask level, i = .setDemand dt q mask level
    · obtain ⟨dt, q, mask, level, rfl⟩ := hi
      exact exec_setDemand_requestsEnd hs h
    · simp only [not_exists] at hi
      rw [raisesDemand_eq_none hi]
      exact exec_requestsEnd hs h hp hi

end Sys2Proof
end
